-- ==== Sys2Proof/Word.lean ====
section
/-! DEFINITION. The bit-vector types of the unit (00_scope.md R5, R9): bit 0 is the least significant bit of each. -/

namespace Sys2Proof

/-- A 16-bit operand, result or ROM word (R5). -/
abbrev Word := BitVec 16

/-- An 8-bit angle: a full turn is 256 units (R5, 40_sincos.md R100). -/
abbrev Angle := BitVec 8

/-- The 3-bit op field (R5, 30_encoding.md R60). -/
abbrev OpCode := BitVec 3

/-- The 35-bit command word CMD = {OP, A, B} (30_encoding.md R60). -/
abbrev Command := BitVec 35

/-- A 6-bit index into the sine table, 0..63 (20_memory.md R40). -/
abbrev RomIndex := BitVec 6

/-- The sine table as hardware: 64 words of 16 bits (10_state.md R30). -/
abbrev Rom := Vector Word 64

end Sys2Proof
end

