-- ==== Sys2Proof/Syntax.lean ====
section
/-! DEFINITION. The commands of the unit, one constructor per row of spec/opcode_table.json (30_encoding.md R61), and the
command-trace syntax of the spec's test programs (R69). -/

namespace Sys2Proof

/-- A command: its operation and its two 16-bit operand fields A and B, whole. The bits an operation ignores (R62) are carried, so that
no bit of the 35-bit word is lost (log 12). -/
inductive Instr where
  /-- OP 0: sine of the angle `A[7:0]` (40_sincos.md R105). -/
  | sin (a b : Word)
  /-- OP 1: cosine of the angle `A[7:0]` (R106). -/
  | cos (a b : Word)
  /-- OP 2: angle of the vector with `y = s16(A)` and `x = s16(B)` (41_atan2.md R122). -/
  | atan2 (a b : Word)
  /-- OP 3: integer square root of `A` (42_isqrt.md R141). -/
  | isqrt (a b : Word)
  /-- OP 4: magnitude of the Q8.8 vector `(s16(A), s16(B))` (43_magnitude.md R161). -/
  | mag (a b : Word)
  /-- OP 5: reserved (R66). -/
  | rsvd5 (a b : Word)
  /-- OP 6: reserved (R66). -/
  | rsvd6 (a b : Word)
  /-- OP 7: reserved (R66). -/
  | rsvd7 (a b : Word)
  deriving DecidableEq, Repr

/-- The `OP` field of a command (R61). -/
def Instr.op : Instr → OpCode
  | .sin _ _ => 0
  | .cos _ _ => 1
  | .atan2 _ _ => 2
  | .isqrt _ _ => 3
  | .mag _ _ => 4
  | .rsvd5 _ _ => 5
  | .rsvd6 _ _ => 6
  | .rsvd7 _ _ => 7

/-- The `A` field of a command (R60). -/
def Instr.a : Instr → Word
  | .sin a _ | .cos a _ | .atan2 a _ | .isqrt a _ | .mag a _ | .rsvd5 a _ | .rsvd6 a _ | .rsvd7 a _ => a

/-- The `B` field of a command (R60). -/
def Instr.b : Instr → Word
  | .sin _ b | .cos _ b | .atan2 _ b | .isqrt _ b | .mag _ b | .rsvd5 _ b | .rsvd6 _ b | .rsvd7 _ b => b

/-- A literal of the command-trace syntax (R69): a decimal integer, or a `0x` operand, which gives the word directly. -/
inductive Literal where
  | decimal (n : Int)
  | hex (n : Nat)
  deriving DecidableEq, Repr

/-- The integer a literal writes. -/
def Literal.value : Literal → Int
  | .decimal n => n
  | .hex n => n

/-- A line of the command-trace syntax (R69), its literals as written. `wait` is host behaviour, not a command. -/
inductive TraceLine where
  | sin (angle : Literal)
  | cos (angle : Literal)
  | atan2 (y x : Literal)
  | isqrt (v : Literal)
  | mag (a b : Literal)
  | rsvd (op : Literal)
  | wait
  deriving DecidableEq, Repr

/-- What a host does next: issue a command, wait for `done` and read the result (R69, 70_reset_and_hazards.md R231), or assert `rst` (R237). -/
inductive HostAction where
  | issue (i : Instr)
  | wait
  /-- Let `after` cycles pass, this one among them, then hold `rst = 1` for one. No line of the syntax: 95_test_vectors.md program 3 writes it
  as a comment (log 14). -/
  | reset (after : Nat)
  deriving DecidableEq, Repr

end Sys2Proof
end

