-- ==== Sys2Proof/WellFormed.lean ====
section
/-! DEFINITION. What the assembler of 30_encoding.md R69 accepts, and the form it gives a command.

Neither check is the machine's: decoding is total and every value of A and B is legal (R65). The machine runs a command whether or not
it is in the assembler's form (R64, log 16). -/

namespace Sys2Proof

/-- R69: the literal of an angle lies in 0..255. -/
def angleLiteral (l : Literal) : Bool := decide (0 ≤ l.value ∧ l.value ≤ 255)

/-- R69: a signed operand is a decimal in -32768..32767 or a `0x` word in 0x0000..0xFFFF. -/
def signedLiteral : Literal → Bool
  | .decimal n => decide (-32768 ≤ n ∧ n ≤ 32767)
  | .hex n => decide (n ≤ 0xFFFF)

/-- R69: the operand of ISQRT lies in 0..65535. -/
def unsignedLiteral (l : Literal) : Bool := decide (0 ≤ l.value ∧ l.value ≤ 65535)

/-- R69: RSVD takes an op from 5 to 7. -/
def reservedLiteral (l : Literal) : Bool := decide (5 ≤ l.value ∧ l.value ≤ 7)

/-- R69: an assembler refuses a literal outside the listed range. -/
def TraceLine.wellFormed : TraceLine → Bool
  | .sin angle => angleLiteral angle
  | .cos angle => angleLiteral angle
  | .atan2 y x => signedLiteral y && signedLiteral x
  | .isqrt v => unsignedLiteral v
  | .mag a b => signedLiteral a && signedLiteral b
  | .rsvd op => reservedLiteral op
  | .wait => true

/-- R64: software should drive the ignored bits of R62 to 0. A reserved op is assembled with both operands 0 (R69). -/
def Instr.wellFormed : Instr → Bool
  | .sin a b => decide (a.extractLsb' 8 8 = 0 ∧ b = 0)
  | .cos a b => decide (a.extractLsb' 8 8 = 0 ∧ b = 0)
  | .atan2 _ _ => true
  | .isqrt _ b => decide (b = 0)
  | .mag _ _ => true
  | .rsvd5 a b => decide (a = 0 ∧ b = 0)
  | .rsvd6 a b => decide (a = 0 ∧ b = 0)
  | .rsvd7 a b => decide (a = 0 ∧ b = 0)

end Sys2Proof
end

