-- ==== Sys2Proof/Decode.lean ====
section
/-! DEFINITION. Decoding and encoding of command words (30_encoding.md R60 to R66), the opcode table, and the assembler of the
command-trace syntax (R69). -/

namespace Sys2Proof

/-- `OP = CMD[34:32]` (R60). -/
def Command.op (c : Command) : OpCode := c.extractLsb' 32 3

/-- `A = CMD[31:16]` (R60). -/
def Command.a (c : Command) : Word := c.extractLsb' 16 16

/-- `B = CMD[15:0]` (R60). -/
def Command.b (c : Command) : Word := c.extractLsb' 0 16

/-- The operation that the three bits of OP select, most significant first (R61). Every combination has its own arm. -/
def decodeFields (op : OpCode) (a b : Word) : Instr :=
  match op.getLsbD 2, op.getLsbD 1, op.getLsbD 0 with
  | false, false, false => .sin a b
  | false, false, true => .cos a b
  | false, true, false => .atan2 a b
  | false, true, true => .isqrt a b
  | true, false, false => .mag a b
  | true, false, true => .rsvd5 a b
  | true, true, false => .rsvd6 a b
  | true, true, true => .rsvd7 a b

/-- Decoding is total on 35-bit words (R65). -/
def decode (c : Command) : Instr := decodeFields c.op c.a c.b

/-- Why a number is not a command word. -/
inductive DecodeError where
  /-- R60: a command is 35 bits long, and there are no other lengths. -/
  | widerThanCommand
  deriving DecidableEq, Repr

/-- The command a number stands for: the 35-bit word's, or a rejection by name (R60, R65). -/
def decodeNumber (n : Nat) : Except DecodeError Instr :=
  if n < 2 ^ 35 then .ok (decode (BitVec.ofNat 35 n)) else .error .widerThanCommand

/-- `CMD = {OP, A, B}` (R60). -/
def encode (i : Instr) : Command := i.op ++ i.a ++ i.b

/-- One row of spec/opcode_table.json. -/
structure OpcodeRow where
  mnemonic : String
  mask : Command
  pattern : Command
  deriving DecidableEq, Repr

/-- The opcode table: `mask = 0x700000000` and `match = OP << 32` (R65). -/
def opcodeTable : List OpcodeRow :=
  [ ⟨"SIN", 0x700000000, 0x000000000⟩, ⟨"COS", 0x700000000, 0x100000000⟩,
    ⟨"ATAN2", 0x700000000, 0x200000000⟩, ⟨"ISQRT", 0x700000000, 0x300000000⟩,
    ⟨"MAG", 0x700000000, 0x400000000⟩, ⟨"RSVD5", 0x700000000, 0x500000000⟩,
    ⟨"RSVD6", 0x700000000, 0x600000000⟩, ⟨"RSVD7", 0x700000000, 0x700000000⟩ ]

/-- The mnemonic of a command as the table spells it (R61). -/
def Instr.mnemonic : Instr → String
  | .sin _ _ => "SIN"
  | .cos _ _ => "COS"
  | .atan2 _ _ => "ATAN2"
  | .isqrt _ _ => "ISQRT"
  | .mag _ _ => "MAG"
  | .rsvd5 _ _ => "RSVD5"
  | .rsvd6 _ _ => "RSVD6"
  | .rsvd7 _ _ => "RSVD7"

/-- The host's question (log 11): the command read from a table row's bits. A command is one 35-bit word and the table numbers its
bits as R60 does; every bit above `nbits` is 0. -/
def decodeTableWord (nbits w : Nat) : Option Instr := (decodeNumber (w % 2 ^ nbits)).toOption

/-- The 16-bit field of a literal: `sext_16` of a decimal, the word itself of a `0x` operand (R69). -/
def Literal.word (l : Literal) : Word := BitVec.ofInt 16 l.value

/-- What a well-formed line assembles to; every ignored field is 0 (R69, log 14). A line with a literal outside its range is refused. -/
def TraceLine.assemble (t : TraceLine) : Option HostAction :=
  if t.wellFormed then
    some (match t with
      | .sin angle => .issue (.sin angle.word 0)
      | .cos angle => .issue (.cos angle.word 0)
      | .atan2 y x => .issue (.atan2 y.word x.word)
      | .isqrt v => .issue (.isqrt v.word 0)
      | .mag a b => .issue (.mag a.word b.word)
      | .rsvd op => .issue (decodeFields (BitVec.ofInt 3 op.value) 0 0)
      | .wait => .wait)
  else none

end Sys2Proof
end

