-- ==== Sys2Proof/Config.lean ====
section
/-! DEFINITION. The parameters fixed when the hardware is built (00_scope.md R6 to R8) and the free values.

A `Config` can hold admitted values only; a value outside its range is refused when a configuration is made (`Config.ofParameters`,
92_eei_decisions.md D34). State carries the Config because `step` takes nothing else; no step changes it (log 1). -/

namespace Sys2Proof

/-- `ATAN_SHIFT` (R7): 2, the literal `ratio/4` of the source and the default, or 3, `ratio/8`. -/
inductive AtanShift where
  | quarter
  | eighth
  deriving DecidableEq, Repr

/-- The right shift itself. -/
def AtanShift.amount : AtanShift → Nat
  | .quarter => 2
  | .eighth => 3

/-- R7: the admitted values are 2 and 3; any other is refused. -/
def AtanShift.ofAmount : Nat → Option AtanShift
  | 2 => some .quarter
  | 3 => some .eighth
  | _ => none

/-- A latency parameter, 1 to 32 edges (R8), held as `LAT - 1`, which is what acceptance loads into `cnt` (10_state.md R23). -/
structure Latency where
  lessOne : Fin 32
  deriving DecidableEq, Repr

/-- The number of edges from acceptance to completion (R8). -/
def Latency.edges (l : Latency) : Nat := l.lessOne.val + 1

/-- R8: each latency is an integer from 1 to 32; any other is refused. -/
def Latency.ofEdges (n : Nat) : Option Latency :=
  if h : 1 ≤ n ∧ n ≤ 32 then some ⟨⟨n - 1, by omega⟩⟩ else none

/-- The build-time parameters of one unit (R6, R7, R8). -/
structure Config where
  magShift : Fin 8
  atanShift : AtanShift
  latSin : Latency
  latCos : Latency
  latAtan2 : Latency
  latIsqrt : Latency
  latMag : Latency
  latRsvd : Latency
  deriving DecidableEq, Repr

/-- The parameters as numbers, each with its default (R6, R7 and the table of R8). -/
structure Config.Parameters where
  magShift : Nat := 4
  atanShift : Nat := 2
  latSin : Nat := 1
  latCos : Nat := 1
  latAtan2 : Nat := 10
  latIsqrt : Nat := 15
  latMag : Nat := 16
  latRsvd : Nat := 1
  deriving DecidableEq, Repr

/-- Which parameter is outside its admitted range (D34). -/
inductive Config.Inadmissible where
  | magShift
  | atanShift
  | latSin
  | latCos
  | latAtan2
  | latIsqrt
  | latMag
  | latRsvd
  deriving DecidableEq, Repr

/-- The value, or a refusal that names the parameter. -/
def Config.require {α : Type} (what : Config.Inadmissible) : Option α → Except Config.Inadmissible α
  | some v => .ok v
  | none => .error what

/-- A configuration from numbers. It refuses `MAG_SHIFT` outside 0..7, `ATAN_SHIFT` other than 2 and 3, and any `LAT_*`
outside 1..32, naming the first such parameter (R6, R7, R8, D34). -/
def Config.ofParameters (p : Config.Parameters) : Except Config.Inadmissible Config := do
  let magShift ← Config.require .magShift (if h : p.magShift < 8 then some (⟨p.magShift, h⟩ : Fin 8) else none)
  let atanShift ← Config.require .atanShift (AtanShift.ofAmount p.atanShift)
  let latSin ← Config.require .latSin (Latency.ofEdges p.latSin)
  let latCos ← Config.require .latCos (Latency.ofEdges p.latCos)
  let latAtan2 ← Config.require .latAtan2 (Latency.ofEdges p.latAtan2)
  let latIsqrt ← Config.require .latIsqrt (Latency.ofEdges p.latIsqrt)
  let latMag ← Config.require .latMag (Latency.ofEdges p.latMag)
  let latRsvd ← Config.require .latRsvd (Latency.ofEdges p.latRsvd)
  return { magShift, atanShift, latSin, latCos, latAtan2, latIsqrt, latMag, latRsvd }

/-- The default configuration: `MAG_SHIFT` 4, `ATAN_SHIFT` 2, latencies 1, 1, 10, 15, 16, 1 (R6, R7, R8). -/
def Config.reference : Config where
  magShift := 4
  atanShift := .quarter
  latSin := ⟨0⟩
  latCos := ⟨0⟩
  latAtan2 := ⟨9⟩
  latIsqrt := ⟨14⟩
  latMag := ⟨15⟩
  latRsvd := ⟨0⟩

/-- The free values (log 3): what a register of the given width holds where the spec says "unspecified" and asks for a draw
(10_state.md R37, 70_reset_and_hazards.md R226). The second argument tells one draw from another. It has no body, so no value of it
can be proved. -/
opaque Config.freeBits (width draw : Nat) : BitVec width

/-- A one-bit draw. -/
def Config.freeBit (draw : Nat) : Bool := (Config.freeBits 1 draw).getLsbD 0

end Sys2Proof
end

