-- ==== Sys2Proof/Machine/Rom.lean ====
section
/-! DEFINITION. The sine table's contents (10_state.md R31) and its read port (20_memory.md R41). -/

namespace Sys2Proof.Machine

/-- The 64 entries of R31: entry i is round(sin(i · 90° / 64) · 256). -/
def sineTable : Rom :=
  #v[0, 6, 13, 19, 25, 31, 38, 44, 50, 56, 62, 68, 74, 80, 86, 92,
     98, 104, 109, 115, 121, 126, 132, 137, 142, 147, 152, 157, 162, 167, 172, 177,
     181, 185, 190, 194, 198, 202, 206, 209, 213, 216, 220, 223, 226, 229, 231, 234,
     237, 239, 241, 243, 245, 247, 248, 250, 251, 252, 253, 254, 255, 255, 256, 256]

/-- `ROM[i]`: one whole word, with no side effect (R41, R44). A 6-bit index is never out of range (R43). -/
def romRead (rom : Rom) (i : RomIndex) : Word := rom[i.toNat]'i.isLt

end Sys2Proof.Machine
end

