-- ==== Sys2Proof/Machine/State.lean ====
section
/-! DEFINITION. The state of the unit (10_state.md R20 to R31), the input ports over time (R32), the reasons a step can stop, and the
state after reset (R36). -/

namespace Sys2Proof.Machine

/-- What a completion writes: the triple `(result16, ovf, err)` of an architectural result function (00_scope.md R12). -/
structure Completion where
  result : Word
  ovf : Bool
  err : Bool
  deriving DecidableEq, Repr

/-- The work registers of the ATAN2 reference datapath (41_atan2.md R124). The widths of `D` and `R` are DEDUCED (log 8). -/
structure Divider where
  /-- `xn`: the sign bit of x. -/
  xn : Bool
  /-- `yn`: the sign bit of y. -/
  yn : Bool
  /-- `inv`: the inverted branch was taken. -/
  inv : Bool
  /-- `z`: both operands are zero. -/
  z : Bool
  /-- `D`: the divisor. -/
  d : Word
  /-- `R`: the partial remainder. -/
  r : Word
  /-- `T`: the dividend tail. -/
  t : BitVec 9
  /-- `Q`: the quotient, the ratio once all nine bits are done. -/
  q : BitVec 9
  deriving DecidableEq, Repr

/-- The work registers of the ISQRT and MAG reference datapaths (42_isqrt.md R143, 43_magnitude.md R163). The width of `v` is DEDUCED
(log 8). -/
structure Rooter where
  /-- `acc`: the square-root accumulator. -/
  acc : BitVec 15
  /-- `v`: the radicand of MAG; ISQRT reads `a_r` in its place. -/
  v : Word
  /-- `ovf_p`: the pending overflow flag of MAG. -/
  ovfP : Bool
  deriving DecidableEq, Repr

/-- One clock cycle of the host: the levels it drives on the input ports of R32, sampled at the rising edge that ends the cycle, and
whether it reads the output ports in that cycle (70_reset_and_hazards.md R237). -/
structure HostCycle where
  rst : Bool
  cmdValid : Bool
  cmdOp : OpCode
  cmdA : Word
  cmdB : Word
  reads : Bool
  deriving DecidableEq, Repr

/-- A cycle in which the host does nothing: no reset, no command, no read. -/
def HostCycle.idle : HostCycle where
  rst := false
  cmdValid := false
  cmdOp := 0
  cmdA := 0
  cmdB := 0
  reads := false

/-- The machine. The last three fields are the model's own, not the spec's (INVENTORY.md, State). -/
structure State where
  /-- The build-time parameters (R35); no step writes them (log 1). -/
  config : Config
  /-- The sine table (R30); no step writes it (log 10). -/
  rom : Rom
  /-- A command is in flight (R22). -/
  busy : Bool
  /-- Edges remaining until completion (R23). -/
  cnt : BitVec 5
  /-- The latched op code (R24). -/
  opR : OpCode
  /-- The latched operand A (R24). -/
  aR : Word
  /-- The latched operand B (R24). -/
  bR : Word
  /-- The result word of the last completion (R25). -/
  resultR : Word
  /-- The magnitude overflow flag (R26). -/
  ovfR : Bool
  /-- The reserved-op flag (R27). -/
  errR : Bool
  /-- High for one cycle after each completion (R28). -/
  doneR : Bool
  /-- Hidden work registers of ATAN2 (R29). -/
  divider : Divider
  /-- Hidden work registers of ISQRT and MAG (R29). -/
  rooter : Rooter
  /-- A reset edge has happened since power-up (R37, log 6). -/
  booted : Bool
  /-- How many free values have been drawn (log 3). -/
  draws : Nat
  /-- The coming clock cycles as the host drives them, next first; past the end the host is idle (log 4). -/
  host : List HostCycle
  deriving DecidableEq, Repr

/-- Why a step stops. Both are faults of the host program, not of the unit (R37); both are safe, since the model stops where the
hardware would go on from unspecified values. -/
inductive Fault where
  /-- Raised by `step` when the host reads an output, or watches `done` for a `WAIT` (log 19), before the first reset edge (R37). Safe. -/
  | readBeforeReset
  /-- Raised by `step` when the host presents a command at an edge without reset before the first reset edge (R37, R228). Safe. -/
  | commandBeforeReset
  deriving DecidableEq, Repr

/-- Why an instruction has no meaning. -/
inductive Refusal where
  /-- Raised by an arm of `exec` whose instruction has no meaning yet; no arm is left so. Safe. -/
  | notModelled (mnemonic : String)
  deriving DecidableEq, Repr

/-- The state after a reset edge, in the default configuration (R36). `cnt`, the latches and the work registers, to which the spec gives no
reset value, are 0 (DESIGN CHOICE, log 2); the host has nothing to say yet (log 4). -/
def State.reset : State where
  config := Config.reference
  rom := sineTable
  busy := false
  cnt := 0
  opR := 0
  aR := 0
  bR := 0
  resultR := 0
  ovfR := false
  errR := false
  doneR := false
  divider := { xn := false, yn := false, inv := false, z := false, d := 0, r := 0, t := 0, q := 0 }
  rooter := { acc := 0, v := 0, ovfP := false }
  booted := true
  draws := 0
  host := []

end Sys2Proof.Machine
end

