-- ==== Sys2Proof/Machine/Flags.lean ====
section
/-! DEFINITION. The two status flags and the status code (10_state.md R26, R27, R34; 60_exceptions.md R201). -/

namespace Sys2Proof.Machine

/-- `ovf`: the unreduced sum of the renormalised squares is 65536 or more (43_magnitude.md R164). -/
def magOverflow (sum : Nat) : Bool := decide (65536 ≤ sum)

/-- The status code of a completion, `(err, ovf)` (R201). -/
inductive StatusCode where
  /-- `0b00`. -/
  | ok
  /-- `0b01`. -/
  | magOverflow
  /-- `0b10`. -/
  | reservedOp
  /-- `0b11`, which no completion produces. -/
  | neverProduced
  deriving DecidableEq, Repr

/-- The name of a pair of flags (R201). -/
def statusCode (err ovf : Bool) : StatusCode :=
  match err, ovf with
  | false, false => .ok
  | false, true => .magOverflow
  | true, false => .reservedOp
  | true, true => .neverProduced

/-- The status code the flags hold now. -/
def State.status (s : State) : StatusCode := statusCode s.errR s.ovfR

end Sys2Proof.Machine
end

