-- ==== Sys2Proof/Machine/Operands.lean ====
section
/-! DEFINITION. The number primitives (00_scope.md R10) and how each op reads its operands from the latched fields
(30_encoding.md R62). -/

namespace Sys2Proof.Machine

/-- `u16(v)` and `sext_16(v)`: the 16-bit word of an integer, modulo 2^16 (R10). -/
def sext16 (v : Int) : Word := BitVec.ofInt 16 v

/-- `u8(v)`: an integer modulo 2^8 (R10). -/
def u8 (v : Int) : Angle := BitVec.ofInt 8 v

/-- `zext_16` of an 8-bit value (R10). -/
def zextAngle (v : Angle) : Word := v.setWidth 16

/-- `s16(w)`: a word read as two's complement (R10). -/
def s16 (w : Word) : Int := w.toInt

/-- `abs(s16(w))`: the exact magnitude, so that of -32768 is 32768 (R10, D12). -/
def magnitude (w : Word) : Nat := (s16 w).natAbs

/-- The angle operand of SIN and COS: `A[7:0]` (R62, R63). -/
def angleOperand (a : Word) : Angle := a.extractLsb' 0 8

/-- The phase-shift mux of COS: a quarter turn added with 8-bit wrapping (40_sincos.md R106). -/
def phaseShift (angle : Angle) : Angle := angle + 64

/-- `q = angle[7:6]` (40_sincos.md R101). -/
def quadrant (angle : Angle) : BitVec 2 := angle.extractLsb' 6 2

/-- `idx = angle[5:0]` (40_sincos.md R101). -/
def indexOf (angle : Angle) : RomIndex := angle.extractLsb' 0 6

end Sys2Proof.Machine
end

