-- ==== Sys2Proof/Machine/Ops.lean ====
section
/-! DEFINITION. The operations the meanings and the edges share: the integer square root, the latency table, the free values, the output
ports, and the writes of a completion.

There is no operation that takes an exception: the unit raises none and has no trap entry or return (60_exceptions.md R200, R206,
R207). There is no operation that writes memory (00_scope.md R11). -/

namespace Sys2Proof.Machine

/-- The greatest `r ≤ bound` with `r * r ≤ v`. -/
def greatestRoot (v : Nat) : Nat → Nat
  | 0 => 0
  | r + 1 => if (r + 1) * (r + 1) ≤ v then r + 1 else greatestRoot v r

/-- `isqrt(v)` of a 16-bit value: the greatest `r` with `r * r ≤ v`, which is at most 255 (00_scope.md R10, 42_isqrt.md R141, R142). -/
def isqrt (v : Word) : Nat := greatestRoot v.toNat 255

/-- `LAT(op)` (70_reset_and_hazards.md R227). -/
def latencyOf (c : Config) (op : OpCode) : Latency :=
  match op.getLsbD 2, op.getLsbD 1, op.getLsbD 0 with
  | false, false, false => c.latSin
  | false, false, true => c.latCos
  | false, true, false => c.latAtan2
  | false, true, true => c.latIsqrt
  | true, false, false => c.latMag
  | true, false, true => c.latRsvd
  | true, true, false => c.latRsvd
  | true, true, true => c.latRsvd

/-- What acceptance loads into `cnt`: `LAT(op) - 1` (R222). -/
def countLoad (c : Config) (op : OpCode) : BitVec 5 := BitVec.ofNat 5 ((latencyOf c op).edges - 1)

/-- The draws of the divider's registers, from draw `k` on (log 3). -/
def drawDivider (k : Nat) : Divider where
  xn := Config.freeBit k
  yn := Config.freeBit (k + 1)
  inv := Config.freeBit (k + 2)
  z := Config.freeBit (k + 3)
  d := Config.freeBits 16 (k + 4)
  r := Config.freeBits 16 (k + 5)
  t := Config.freeBits 9 (k + 6)
  q := Config.freeBits 9 (k + 7)

/-- The draws of the square root's registers, from draw `k` on (log 3). -/
def drawRooter (k : Nat) : Rooter where
  acc := Config.freeBits 15 k
  v := Config.freeBits 16 (k + 1)
  ovfP := Config.freeBit (k + 2)

/-- How many values one drawing of the hidden registers takes: `cnt`, `op_r`, `a_r`, `b_r`, eight of the divider, three of the root. -/
def drawsPerReset : Nat := 15

/-- The hidden registers take unspecified values (R220): each is a fresh draw. -/
def State.drawHidden (s : State) : State :=
  { s with
    cnt := Config.freeBits 5 s.draws
    opR := Config.freeBits 3 (s.draws + 1)
    aR := Config.freeBits 16 (s.draws + 2)
    bR := Config.freeBits 16 (s.draws + 3)
    divider := drawDivider (s.draws + 4)
    rooter := drawRooter (s.draws + 12)
    draws := s.draws + drawsPerReset }

/-- Every register of the unit takes an unspecified value (10_state.md R37): each is a fresh draw (log 3). The ROM and the configuration are
built in (R30, R35). -/
def State.drawAll (s : State) : State :=
  { s.drawHidden with
    busy := Config.freeBit (s.draws + drawsPerReset)
    resultR := Config.freeBits 16 (s.draws + drawsPerReset + 1)
    ovfR := Config.freeBit (s.draws + drawsPerReset + 2)
    errR := Config.freeBit (s.draws + drawsPerReset + 3)
    doneR := Config.freeBit (s.draws + drawsPerReset + 4)
    draws := s.draws + drawsPerReset + 5 }

/-- A unit at power-up, before its first reset edge: every register is a draw, from draw `firstDraw` on (R37, log 3). -/
def State.powerUp (config : Config) (firstDraw : Nat) (host : List HostCycle) : State :=
  { State.reset with config := config, booted := false, draws := firstDraw, host := host }.drawAll

/-- The cycle the host drives now, whose levels the next edge samples (log 4). -/
def State.input (s : State) : HostCycle := s.host.headD HostCycle.idle

/-- The clock moves on: the host's next cycle begins. -/
def State.tick (s : State) : State := { s with host := s.host.tail }

/-- The command latched in `op_r`, `a_r`, `b_r` (10_state.md R24). -/
def State.latched (s : State) : Instr := decodeFields s.opR s.aR s.bR

/-- The writes of a completion edge to the visible registers: the triple, `done_r <- 1`, `busy <- 0` (70_reset_and_hazards.md R224,
log 9). -/
def State.complete (s : State) (c : Completion) : State :=
  { s with resultR := c.result, ovfR := c.ovf, errR := c.err, doneR := true, busy := false }

/-- The triple that the outputs show (00_scope.md R12). -/
def State.shown (s : State) : Completion := ⟨s.resultR, s.ovfR, s.errR⟩

/-- A completion edge has led here: `done = 1` in a unit that has been reset (10_state.md R28). Before the first reset edge `done_r` is a draw and
tells nothing (R37). -/
def State.completed (s : State) : Bool := s.booted && s.doneR

/-- The output ports (10_state.md R32). -/
structure Outputs where
  cmdReady : Bool
  busy : Bool
  done : Bool
  result : Word
  ovf : Bool
  err : Bool
  deriving DecidableEq, Repr

/-- `cmd_ready = (busy = 0) and (rst = 0)`; every other output copies its register (10_state.md R33). -/
def State.outputs (s : State) : Outputs where
  cmdReady := !s.busy && !s.input.rst
  busy := s.busy
  done := s.doneR
  result := s.resultR
  ovf := s.ovfR
  err := s.errR

/-- A host's read of the output ports: no side effect (20_memory.md R44), and a fault before the first reset edge (10_state.md R37). -/
def State.readOutputs (s : State) : Host.Outcome Outputs Fault Refusal :=
  if s.booted then .next s.outputs else .fault .readBeforeReset

/-- What the host does wrong in this cycle before the first reset edge, if anything (10_state.md R37, 70_reset_and_hazards.md R228). A
command presented at the reset edge itself is no fault: reset takes precedence (R220, R205, log 6). -/
def State.bootFault (s : State) : Option Fault :=
  if s.booted then none
  else if s.input.reads then some .readBeforeReset
  else if s.input.cmdValid && !s.input.rst then some .commandBeforeReset
  else none

end Sys2Proof.Machine
end

