-- ==== Sys2Proof/Machine/Arith.lean ====
section
/-! DEFINITION. The arithmetic of ATAN2 and MAG, shared by their result functions and their reference datapaths
(41_atan2.md, 43_magnitude.md). -/

namespace Sys2Proof.Machine

/-- The inverted branch: `abs(y) > abs(x)`, strictly (41_atan2.md R121). Here `a` holds y and `b` holds x (R62). -/
def inverted (a b : Word) : Bool := decide (magnitude b < magnitude a)

/-- `mn`: the smaller magnitude (R121). -/
def minMagnitude (a b : Word) : Nat := min (magnitude b) (magnitude a)

/-- `mx`: the larger magnitude (R121). -/
def maxMagnitude (a b : Word) : Nat := max (magnitude b) (magnitude a)

/-- `ratio = (mn << 8) div mx` (R121). -/
def ratio (a b : Word) : Nat := (minMagnitude a b <<< 8) / maxMagnitude a b

/-- Steps 4 and 5: the shifted ratio, reflected in the inverted branch (R123). -/
def octantAngle (shift : AtanShift) (inv : Bool) (ratio : Nat) : Int :=
  let ang : Int := (ratio >>> shift.amount : Nat)
  if inv then 64 - ang else ang

/-- Step 6: the signs of x and y select the quadrant (R125). -/
def quadrantAngle (xNegative yNegative : Bool) (ang : Int) : Int :=
  match xNegative, yNegative with
  | false, false => ang
  | true, false => 128 - ang
  | true, true => 128 + ang
  | false, true => 256 - ang

/-- `(u * u) >> 8`: a wide square, renormalised (43_magnitude.md R161). -/
def squareTerm (u : Nat) : Nat := (u * u) >>> 8

/-- `sum`: the exact sum of the two terms (R161). -/
def squareSum (a b : Word) : Nat := squareTerm (magnitude a) + squareTerm (magnitude b)

/-- `sum16`: the sum modulo 2^16 (R164). -/
def squareSum16 (a b : Word) : Word := BitVec.ofNat 16 (squareSum a b)

/-- `r << MAG_SHIFT` as a word (R161, R165). -/
def rescale (c : Config) (r : Nat) : Word := BitVec.ofNat 16 (r <<< c.magShift.val)

end Sys2Proof.Machine
end

