-- ==== Sys2Proof/Machine/Datapath.lean ====
section
/-! DEFINITION. The reference datapaths' work registers (10_state.md R29): the restoring divider of ATAN2 (41_atan2.md R124), the bit-serial
square root of ISQRT (42_isqrt.md R143) and the pipe of MAG (43_magnitude.md R163). No output reads them (R29).

A datapath's edges are numbered from the acceptance edge (R124, R143, R163), so edge `k` is the one before which
`cnt = LAT(op) - k` (10_state.md R23). Past the last edge of its schedule, which only a longer latency than the default reaches, the spec
says nothing of the work registers, and they are draws (log 7). -/

namespace Sys2Proof.Machine

/-- The setup edge of the divider (R124): `a` holds y and `b` holds x. -/
def dividerSetup (a b : Word) : Divider where
  xn := b.getLsbD 15
  yn := a.getLsbD 15
  inv := inverted a b
  z := decide (a = 0 ∧ b = 0)
  d := if a = 0 ∧ b = 0 then 1 else BitVec.ofNat 16 (maxMagnitude a b)
  r := BitVec.ofNat 16 (minMagnitude a b >>> 1)
  t := if (minMagnitude a b).testBit 0 then 0b100000000 else 0
  q := 0

/-- One iteration edge of the divider, for quotient bit `j` (R124): shift, compare, subtract. -/
def dividerIterate (j : Nat) (w : Divider) : Divider :=
  let shifted := 2 * w.r.toNat + (w.t.getLsbD j).toNat
  if w.d.toNat ≤ shifted then
    { w with r := BitVec.ofNat 16 (shifted - w.d.toNat), q := w.q ||| ((1 : BitVec 9) <<< j) }
  else
    { w with r := BitVec.ofNat 16 shifted, q := w.q &&& ~~~((1 : BitVec 9) <<< j) }

/-- The combinational finalise stage of the divider (R124): the word it drives from the quotient and the sign bits. -/
def dividerFinalise (shift : AtanShift) (w : Divider) : Word :=
  if w.z then 0
  else zextAngle (u8 (quadrantAngle w.xn w.yn (octantAngle shift w.inv w.q.toNat)))

/-- Edge `k` of the divider, 1 to 10: the setup edge, then bits 8 down to 0 (R124). -/
def dividerStep (a b : Word) (k : Nat) (w : Divider) : Divider :=
  if k = 1 then dividerSetup a b else dividerIterate (10 - k) w

/-- One trial of the square root at bit position `p` (R143): keep the bit if its square still fits, else restore. -/
def rootTrial (v : Word) (p : Nat) (acc : BitVec 15) : BitVec 15 :=
  let t := acc ||| ((1 : BitVec 15) <<< p)
  if t.toNat * t.toNat ≤ v.toNat then t else acc

/-- Edge `k` of ISQRT, 1 to 15: the trial at position `15 - k`, whose radicand is `a_r` (R143). -/
def isqrtStep (a : Word) (k : Nat) (w : Rooter) : Rooter := { w with acc := rootTrial a (15 - k) w.acc }

/-- The front-end edge of MAG (R163). -/
def magFrontEnd (a b : Word) : Rooter where
  acc := 0
  v := squareSum16 a b
  ovfP := magOverflow (squareSum a b)

/-- Edge `k` of MAG, 1 to 16: the front-end edge, then the trials at positions 14 down to 0 (R163). -/
def magStep (a b : Word) (k : Nat) (w : Rooter) : Rooter :=
  if k = 1 then magFrontEnd a b else { w with acc := rootTrial w.v (16 - k) w.acc }

/-- The number, from acceptance, of the edge that comes next for a command of latency `l` (R23). -/
def State.edgeNumber (s : State) (l : Latency) : Nat := l.edges - s.cnt.toNat

/-- Edge `k` lies in a schedule of edges 1 to `last`. -/
def inSchedule (k last : Nat) : Bool := decide (1 ≤ k ∧ k ≤ last)

/-- The count of draws after an edge that draws unless it is in its schedule (log 3). -/
def drawsAfter (scheduled : Bool) (draws : Nat) : Nat := if scheduled then draws else draws + drawsPerReset

/-- The divider takes its next edge, or a draw outside its schedule of 10 edges (R124, log 7). -/
def State.stepDivider (s : State) (a b : Word) : State :=
  let k := s.edgeNumber s.config.latAtan2
  { s with
    divider := if inSchedule k 10 then dividerStep a b k s.divider else drawDivider s.draws
    draws := drawsAfter (inSchedule k 10) s.draws }

/-- The square root of ISQRT takes its next edge, or a draw outside its schedule of 15 edges (R143, log 7). -/
def State.stepIsqrt (s : State) (a : Word) : State :=
  let k := s.edgeNumber s.config.latIsqrt
  { s with
    rooter := if inSchedule k 15 then isqrtStep a k s.rooter else drawRooter s.draws
    draws := drawsAfter (inSchedule k 15) s.draws }

/-- The pipe of MAG takes its next edge, or a draw outside its schedule of 16 edges (R163, log 7). -/
def State.stepMag (s : State) (a b : Word) : State :=
  let k := s.edgeNumber s.config.latMag
  { s with
    rooter := if inSchedule k 16 then magStep a b k s.rooter else drawRooter s.draws
    draws := drawsAfter (inSchedule k 16) s.draws }

/-- The selected datapath takes one step (70_reset_and_hazards.md R223). SIN, COS and the reserved ops have no work register (R111,
R66). -/
def State.stepDatapath (s : State) (i : Instr) : State :=
  match i with
  | .sin _ _ => s
  | .cos _ _ => s
  | .atan2 a b => s.stepDivider a b
  | .isqrt a _ => s.stepIsqrt a
  | .mag a b => s.stepMag a b
  | .rsvd5 _ _ => s
  | .rsvd6 _ _ => s
  | .rsvd7 _ _ => s

end Sys2Proof.Machine
end

