-- ==== Sys2Proof/Machine/Atan2.lean ====
section
/-! DEFINITION. ATAN2: the ratio approximation with quadrant correction (41_atan2.md). -/

namespace Sys2Proof.Machine

/-- `atan8(y, x)` with y in `a` and x in `b` (R122): 0 for the zero vector (R120), else steps 2 to 6. -/
def atan8 (shift : AtanShift) (a b : Word) : Angle :=
  if s16 b = 0 ∧ s16 a = 0 then 0
  else u8 (quadrantAngle (decide (s16 b < 0)) (decide (s16 a < 0)) (octantAngle shift (inverted a b) (ratio a b)))

/-- `F_ATAN2` (R122). -/
def resultAtan2 (c : Config) (a b : Word) : Completion :=
  ⟨zextAngle (atan8 c.atanShift a b), false, false⟩

/-- ATAN2 completes (R122, 70_reset_and_hazards.md R224); the divider takes its last step (R124). -/
def execAtan2 (a b : Word) (s : State) : Host.Outcome State Fault Refusal :=
  .next ((s.stepDivider a b).complete (resultAtan2 s.config a b))

end Sys2Proof.Machine
end

