-- ==== Sys2Proof/Machine/Isqrt.lean ====
section
/-! DEFINITION. ISQRT: the exact integer square root (42_isqrt.md). -/

namespace Sys2Proof.Machine

/-- `F_ISQRT` (R141): the operand is A, unsigned; B is ignored (R140). -/
def resultIsqrt (a _b : Word) : Completion := ⟨BitVec.ofNat 16 (isqrt a), false, false⟩

/-- ISQRT completes (R141, 70_reset_and_hazards.md R224); the square root takes its last step (R143). -/
def execIsqrt (a b : Word) (s : State) : Host.Outcome State Fault Refusal :=
  .next ((s.stepIsqrt a).complete (resultIsqrt a b))

end Sys2Proof.Machine
end

