-- ==== Sys2Proof/Machine/Mag.lean ====
section
/-! DEFINITION. MAG: the vector-magnitude pipe (43_magnitude.md). -/

namespace Sys2Proof.Machine

/-- `F_MAG` (R161): the root of the wrapped sum, rescaled, and the overflow flag of the exact sum (R164). -/
def resultMag (c : Config) (a b : Word) : Completion :=
  ⟨rescale c (isqrt (squareSum16 a b)), magOverflow (squareSum a b), false⟩

/-- MAG completes (R161, 70_reset_and_hazards.md R224); the pipe takes its last step (R163). -/
def execMag (a b : Word) (s : State) : Host.Outcome State Fault Refusal :=
  .next ((s.stepMag a b).complete (resultMag s.config a b))

end Sys2Proof.Machine
end

