-- ==== Sys2Proof/Machine/Reserved.lean ====
section
/-! DEFINITION. The reserved ops 5, 6 and 7 (30_encoding.md R66): neither a trap nor a hang. -/

namespace Sys2Proof.Machine

/-- `F_RSVD(a, b) = (0x0000, 0, 1)` (R66). -/
def resultReserved : Completion := ⟨0, false, true⟩

/-- OP 5 completes (R66). -/
def execRsvd5 (_a _b : Word) (s : State) : Host.Outcome State Fault Refusal := .next (s.complete resultReserved)

/-- OP 6 completes (R66). -/
def execRsvd6 (_a _b : Word) (s : State) : Host.Outcome State Fault Refusal := .next (s.complete resultReserved)

/-- OP 7 completes (R66). -/
def execRsvd7 (_a _b : Word) (s : State) : Host.Outcome State Fault Refusal := .next (s.complete resultReserved)

end Sys2Proof.Machine
end

