-- ==== Sys2Proof/Machine/SinCos.lean ====
section
/-! DEFINITION. SIN and COS: the quadrant-folded table and the phase-shift mux (40_sincos.md). -/

namespace Sys2Proof.Machine

/-- The fold mux: the ROM address is `idx` in quadrants 0 and 2 and `63 - idx` in quadrants 1 and 3 (R102). -/
def foldAddress (angle : Angle) : RomIndex :=
  if (quadrant angle).getLsbD 0 then 63 - indexOf angle else indexOf angle

/-- `sin8(angle)`: the ROM word, negated in quadrants 2 and 3 (R103, R104). -/
def sin8 (rom : Rom) (angle : Angle) : Int :=
  let word := s16 (romRead rom (foldAddress angle))
  if (quadrant angle).getLsbD 1 then -word else word

/-- `F_SIN` (R105). -/
def resultSin (rom : Rom) (a _b : Word) : Completion :=
  ⟨sext16 (sin8 rom (angleOperand a)), false, false⟩

/-- `F_COS` (R106). -/
def resultCos (rom : Rom) (a _b : Word) : Completion :=
  ⟨sext16 (sin8 rom (phaseShift (angleOperand a))), false, false⟩

/-- SIN completes (R105, 70_reset_and_hazards.md R224). Its datapath has no work register (R111). -/
def execSin (a b : Word) (s : State) : Host.Outcome State Fault Refusal :=
  .next (s.complete (resultSin s.rom a b))

/-- COS completes (R106, R224). Its datapath has no work register (R111). -/
def execCos (a b : Word) (s : State) : Host.Outcome State Fault Refusal :=
  .next (s.complete (resultCos s.rom a b))

end Sys2Proof.Machine
end

