-- ==== Sys2Proof/Machine/Dispatch.lean ====
section
/-! DEFINITION. One arm per command: its completion edge (70_reset_and_hazards.md R224). -/

namespace Sys2Proof.Machine

def exec (i : Instr) (s : State) : Host.Outcome State Fault Refusal :=
  match i with
  | .sin a b => Sys2Proof.Machine.execSin a b s
  | .cos a b => Sys2Proof.Machine.execCos a b s
  | .atan2 a b => Sys2Proof.Machine.execAtan2 a b s
  | .isqrt a b => Sys2Proof.Machine.execIsqrt a b s
  | .mag a b => Sys2Proof.Machine.execMag a b s
  | .rsvd5 a b => Sys2Proof.Machine.execRsvd5 a b s
  | .rsvd6 a b => Sys2Proof.Machine.execRsvd6 a b s
  | .rsvd7 a b => Sys2Proof.Machine.execRsvd7 a b s

end Sys2Proof.Machine
end

