-- ==== Sys2Proof/Machine/Edges.lean ====
section
/-! DEFINITION. The rising edges that complete no command: reset, acceptance, countdown and idle (70_reset_and_hazards.md R220 to R225),
the edge without reset before the first reset edge (10_state.md R37), and the placing of a command in the latches. Each takes the host's
cycle that the edge samples as its own argument or not at all. -/

namespace Sys2Proof.Machine

/-- Reset (R220): the visible registers take their reset values, the hidden ones are draws, whatever else holds. The unit has now been
reset once since power-up (R228). -/
def State.resetEdge (s : State) : State :=
  { s.drawHidden with
    busy := false, doneR := false, resultR := 0, ovfR := false, errR := false, booted := true }

/-- What the acceptance edge does to the work registers of the square root (R222, 42_isqrt.md R143): accepting ISQRT clears `acc`. R222 puts no
condition on the op there; that accepting any other op leaves `acc` as it is is the model's choice (DESIGN CHOICE, log 18). -/
def acceptRooter (op : OpCode) (w : Rooter) : Rooter :=
  if op = 3 then { w with acc := 0 } else w

/-- An edge without reset before the first reset edge: every register is unspecified until then (10_state.md R37), so each is drawn afresh,
whatever the registers held (log 17). -/
def State.unresetEdge (s : State) : State := s.drawAll

/-- Acceptance (R222): the command is latched whole and `cnt` is loaded. -/
def State.acceptEdge (s : State) (c : HostCycle) : State :=
  { s with
    opR := c.cmdOp, aR := c.cmdA, bR := c.cmdB, busy := true, cnt := countLoad s.config c.cmdOp, doneR := false,
    rooter := acceptRooter c.cmdOp s.rooter }

/-- Countdown (R223): `cnt` goes down by one and the selected datapath takes one step. -/
def State.countdownEdge (s : State) : State :=
  { s.stepDatapath s.latched with cnt := s.cnt - 1, doneR := false }

/-- Idle (R225): the only write is `done_r <- 0`. -/
def State.idleEdge (s : State) : State := { s with doneR := false }

/-- A command placed in flight with no edge left but its completion, in a unit that has been reset (log 5). -/
def State.inFlight (s : State) (c : Command) : State :=
  { s with opR := c.op, aR := c.a, bR := c.b, busy := true, cnt := 0, booted := true }

end Sys2Proof.Machine
end

