-- ==== Sys2Proof/Machine/Step.lean ====
section
/-! DEFINITION. One rising edge of `clk` (70_reset_and_hazards.md R226), and the host's placing of a command. -/

namespace Sys2Proof.Machine

/-- The edge step (R226), its cases in R226's order. The completion edge runs the latched command (R224).

Before the first reset edge a host that reads or commands is at fault, and an edge without reset leaves every register a fresh draw
(10_state.md R37, log 17). -/
def step (s : State) : Host.Outcome State Fault Refusal :=
  match s.bootFault with
  | some f => .fault f
  | none =>
    if s.input.rst then .next s.tick.resetEdge
    else if !s.booted then .next s.tick.unresetEdge
    else if !s.busy && s.input.cmdValid then .next (s.tick.acceptEdge s.input)
    else if !s.busy then .next s.tick.idleEdge
    else if s.cnt ≠ 0 then .next s.tick.countdownEdge
    else exec s.latched s.tick

/-- `s` with the command of these bits in the latches, in flight, and at its completion edge, which is where `step` takes the command it
runs (log 5); one idle cycle of the host comes first, so that the next edge is no reset. -/
def State.withFetchWord (s : State) (nbits w : Nat) : State :=
  { s.inFlight (BitVec.ofNat 35 (w % 2 ^ nbits)) with host := HostCycle.idle :: s.host }

end Sys2Proof.Machine
end

