-- ==== Sys2Proof/Machine/HostProgram.lean ====
section
/-! DEFINITION. A unit together with a host that carries out a command trace (30_encoding.md R69), cycle by cycle.

Host behaviour, not the unit's (log 14): in each cycle the host looks at the outputs, takes up the lines of its trace that it can, and
drives the input ports. It holds a command until it is accepted (70_reset_and_hazards.md R229), and a `WAIT` waits for a cycle with
`done = 1` and samples the triple in it (R231). -/

namespace Sys2Proof.Machine

/-- A trace assembled, or nothing where a line is refused (R69). -/
def assembleTrace (lines : List TraceLine) : Option (List HostAction) := lines.mapM TraceLine.assemble

/-- A unit and its host within one cycle, the host having decided what it drives: `unit.host` is that one cycle. -/
structure Session where
  unit : State
  /-- The lines the host has not taken up, next first. -/
  lines : List HostAction
  /-- The command that the host presents until it is accepted (R229). -/
  presenting : Option Instr
  /-- The commands that a reset abandoned and that have not been accepted again (R234). -/
  abandoned : List Instr
  /-- The triples that the `WAIT`s have sampled, first one first (R231). -/
  sampled : List Completion
  /-- The triples of all completions, first one first (R238). -/
  observed : List Completion
  deriving DecidableEq, Repr

/-- What the host decides in one cycle. -/
structure Reaction where
  lines : List HostAction
  presenting : Option Instr
  rst : Bool
  /-- The host looks at `done`: a `WAIT` is at hand. -/
  watches : Bool
  /-- A `WAIT` passes and samples the triple. -/
  samples : Bool
  deriving DecidableEq, Repr

/-- The lines the host takes up in a cycle, given whether `done = 1` in it and the command it still presents.

It takes a command up when it presents no other. A `WAIT` passes in a cycle with `done = 1` and uses that pulse up, whichever command it
belongs to; with no pulse to come it never passes. That is the model's reading of R69 and R231 (DEDUCED, log 14). -/
def react (done : Bool) : Option Instr → List HostAction → Reaction
  | presenting, [] => ⟨[], presenting, false, false, false⟩
  | none, .issue i :: rest => react done (some i) rest
  | some held, .issue i :: rest => ⟨.issue i :: rest, some held, false, false, false⟩
  | presenting, .wait :: rest =>
    if done then { react false presenting rest with watches := true, samples := true }
    else ⟨.wait :: rest, presenting, false, true, false⟩
  | presenting, .reset 0 :: rest => ⟨rest, presenting, true, false, false⟩
  | presenting, .reset (n + 1) :: rest => ⟨.reset n :: rest, presenting, false, false, false⟩

/-- The input ports in a cycle: the command presented, if any, and `rst`; and whether the host reads the outputs.

Watching `done` for a `WAIT` is a read, so it is the host's fault before the first reset edge (10_state.md R37), whether or not the `WAIT`
passes: the model's choice, since 70_reset_and_hazards.md R237 lists await and read apart (DEDUCED, log 19). -/
def Reaction.cycle (r : Reaction) : HostCycle :=
  match r.presenting with
  | none => { HostCycle.idle with rst := r.rst, reads := r.watches }
  | some i => { rst := r.rst, cmdValid := true, cmdOp := i.op, cmdA := i.a, cmdB := i.b, reads := r.watches }

/-- The host's turn at the start of a cycle: it reacts to the outputs. Before the first reset edge no `WAIT` passes (R37). -/
def Session.turn (p : Session) : Session :=
  let r := react p.unit.completed p.presenting p.lines
  { p with
    unit := { p.unit with host := [r.cycle] }
    lines := r.lines
    presenting := r.presenting
    sampled := if r.samples then p.sampled ++ [p.unit.shown] else p.sampled }

/-- A host about to carry out a trace on a unit. -/
def Session.start (s : State) (lines : List HostAction) : Session :=
  Session.turn { unit := s, lines := lines, presenting := none, abandoned := [], sampled := [], observed := [] }

/-- The command that the coming edge accepts (R222). -/
def Session.accepted (p : Session) : Option Instr := if p.unit.outputs.cmdReady then p.presenting else none

/-- What is known once the unit's edge has led to `t`: a completion is observed (R238), an accepted command is presented no more and is no
longer abandoned, and a reset edge abandons the command in flight (R234); before the first reset edge nothing was accepted. -/
def Session.after (p : Session) (t : State) : Session :=
  { p with
    unit := t
    presenting := if p.accepted.isSome then none else p.presenting
    abandoned :=
      match p.accepted with
      | some i => p.abandoned.erase i
      | none => if p.unit.booted && p.unit.input.rst && p.unit.busy then p.abandoned ++ [p.unit.latched] else p.abandoned
    observed := if t.completed then p.observed ++ [t.shown] else p.observed }

/-- One edge of the unit, and the host's turn in the cycle after it. -/
def Session.edge (p : Session) : Host.Outcome Session Fault Refusal :=
  match step p.unit with
  | .next t => .next (p.after t).turn
  | .fault f => .fault f
  | .refused r => .refused r

/-- `n` edges, stopping at the first fault or refusal. -/
def Session.runFor : Nat → Session → Host.Outcome Session Fault Refusal
  | 0, p => .next p
  | n + 1, p =>
    match p.edge with
    | .next q => runFor n q
    | .fault f => .fault f
    | .refused r => .refused r

/-- R238: every command of the program has been accepted and has completed, and `busy = 0`. No line issues one any more, none is still
presented, and none was abandoned for good. -/
def Session.ended (p : Session) : Bool :=
  p.lines.all (fun l => match l with
    | .issue _ => false
    | .wait => true
    | .reset _ => true)
  && p.presenting.isNone && p.abandoned.isEmpty && !p.unit.busy

/-- The end of a run: the first ended state, looked for over `n` edges (R238). -/
def Session.endWithin : Nat → Session → Option Session
  | 0, p => if p.ended then some p else none
  | n + 1, p =>
    if p.ended then some p
    else
      match p.edge with
      | .next q => endWithin n q
      | .fault _ => none
      | .refused _ => none

/-- A stuck host program (93 I16, I17): nothing is in flight or presented, and the host waits for a `done` that cannot come, or has no line
left while a command was abandoned for good. The unit itself is not stuck (log 15). -/
def Session.stuck (p : Session) : Bool :=
  p.presenting.isNone && !p.unit.busy &&
    match p.lines with
    | [] => !p.abandoned.isEmpty
    | .wait :: _ => true
    | .issue _ :: _ => false
    | .reset _ :: _ => false

/-- The cycles that the host drives over `n` edges. -/
def Session.cycles : Nat → Session → List HostCycle
  | 0, _ => []
  | n + 1, p =>
    p.unit.input ::
      match p.edge with
      | .next q => cycles n q
      | .fault _ => []
      | .refused _ => []

/-- `s` with the host's cycles over `n` edges of a trace as its input. -/
def State.withTrace (s : State) (lines : List HostAction) (n : Nat) : State :=
  { s with host := (Session.start s lines).cycles n }

end Sys2Proof.Machine
end

