-- ==== Sys2Proof/Safety.lean ====
section
/-! DEFINITION. What claims speak of: the launch premise, the status of a completion, runs and what they show, and the
invariant of the machine. -/

namespace Sys2Proof.Machine

/-- `clean_entry(s)`, the launch premise of a claim about a command trace (70_reset_and_hazards.md R239). -/
def State.cleanEntry (s : State) : Bool :=
  !s.busy && !s.doneR && decide (s.resultR = 0) && !s.ovfR && !s.errR

/-- `F_op(a, b)`, the architectural result function of a command (00_scope.md R12). -/
def resultOf (c : Config) (rom : Rom) : Instr → Completion
  | .sin a b => resultSin rom a b
  | .cos a b => resultCos rom a b
  | .atan2 a b => resultAtan2 c a b
  | .isqrt a b => resultIsqrt a b
  | .mag a b => resultMag c a b
  | .rsvd5 _ _ => resultReserved
  | .rsvd6 _ _ => resultReserved
  | .rsvd7 _ _ => resultReserved

/-- A completion that a claim treats as a fault of the issuing program: a reserved op (30_encoding.md R66, 93 I5). The unit goes on
(log 15). -/
def Completion.reservedOp (c : Completion) : Bool := c.err

/-- A completion that a claim about the true magnitude treats as a fault of the issuing program (93 I3). The unit goes on (log 15). -/
def Completion.overflowed (c : Completion) : Bool := c.ovf

/-- `n` edges of the unit, stopping at the first fault or refusal: the host interface's run (`Host.Core.run`) of this machine. -/
def runFor : Nat → State → Host.Outcome State Fault Refusal
  | 0, s => .next s
  | n + 1, s =>
    match step s with
    | .next t => runFor n t
    | .fault f => .fault f
    | .refused r => .refused r

/-- The completions that a run of `n` edges shows, each sampled in the cycle in which `done = 1` (R238); a run that stops shows no more. -/
def observations : Nat → State → List Completion
  | 0, _ => []
  | n + 1, s =>
    match step s with
    | .next t => if t.completed then t.shown :: observations n t else observations n t
    | .fault _ => []
    | .refused _ => []

/-- No coming cycle of the host resets the unit within `n` edges. -/
def State.noResetFor (s : State) (n : Nat) : Prop := ∀ k, k < n → (s.host.getD k HostCycle.idle).rst = false

/-- What holds of the unit after its first reset edge and at every edge from then on: the ROM has its contents (10_state.md R30), a command in
flight has at most `LAT - 1` edges before its completion edge (R23), `done` is not high while busy (R22, R28), the triple of a `done`
cycle is the latched command's result (70_reset_and_hazards.md R224, R231), the status code is never `0b11` (60_exceptions.md R201), and a
reserved op's flag comes with the result 0x0000 (R66). -/
structure State.Inv (s : State) : Prop where
  booted : s.booted = true
  rom : s.rom = sineTable
  count : s.busy = true → s.cnt.toNat < (latencyOf s.config s.opR).edges
  doneIdle : s.doneR = true → s.busy = false
  doneTriple : s.doneR = true → s.shown = resultOf s.config s.rom s.latched
  status : s.status ≠ .neverProduced
  reserved : s.errR = true → s.resultR = 0

end Sys2Proof.Machine
end

