-- ==== Sys2Proof/Certificates/Slice0/Obligations.lean ====
section
/-! DEFINITION. The statements for the provers, from the numbered rules of spec/, and the forms of the spec's own pseudocode that they
compare the machine with (namespace Claims, written from the rules and not from the machine's definitions). -/

namespace Sys2Proof.Claims

open Sys2Proof.Machine

/-- `ROM[i]` as a signed integer (10_state.md R30). -/
def romAt (rom : Rom) (i : Nat) : Int := (rom.toList.getD i 0).toInt

/-- `sin8(angle)`, SG's four cases (40_sincos.md R104). -/
def sin8 (rom : Rom) (angle : Nat) : Int :=
  let q := angle >>> 6
  let idx := angle &&& 63
  match q with
  | 0 => romAt rom idx
  | 1 => romAt rom (63 - idx)
  | 2 => -romAt rom idx
  | _ => -romAt rom (63 - idx)

/-- `atan8(y, x)` (41_atan2.md R122), reduced by `u8`. -/
def atan8 (shift : Nat) (y x : Int) : Int :=
  if x = 0 ∧ y = 0 then 0
  else
    let ax := x.natAbs
    let ay := y.natAbs
    let mn := min ax ay
    let mx := max ax ay
    let ratio := (mn <<< 8) / mx
    let ang : Int := (ratio >>> shift : Nat)
    let ang := if ay > ax then 64 - ang else ang
    let r :=
      if 0 ≤ x ∧ 0 ≤ y then ang
      else if x < 0 ∧ 0 ≤ y then 128 - ang
      else if x < 0 ∧ y < 0 then 128 + ang
      else 256 - ang
    r % 256

/-- `sum` of MAG, exact (43_magnitude.md R161). -/
def magSum (a b : Int) : Nat := ((a.natAbs * a.natAbs) >>> 8) + ((b.natAbs * b.natAbs) >>> 8)

/-- `F_op(a, b)` (70_reset_and_hazards.md R224), with the library's square root as `isqrt`. -/
def result (c : Config) (rom : Rom) (op : OpCode) (a b : Word) : Completion :=
  match op.toNat with
  | 0 => ⟨BitVec.ofInt 16 (sin8 rom (a.toNat % 256)), false, false⟩
  | 1 => ⟨BitVec.ofInt 16 (sin8 rom ((a.toNat % 256 + 64) % 256)), false, false⟩
  | 2 => ⟨BitVec.ofInt 16 (atan8 c.atanShift.amount a.toInt b.toInt), false, false⟩
  | 3 => ⟨BitVec.ofNat 16 (Nat.sqrt a.toNat), false, false⟩
  | 4 => ⟨BitVec.ofNat 16 (Nat.sqrt (magSum a.toInt b.toInt % 65536) <<< c.magShift.val),
          decide (65536 ≤ magSum a.toInt b.toInt), false⟩
  | _ => ⟨0, false, true⟩

/-- `LAT(op)` in edges (70_reset_and_hazards.md R227). -/
def lat (c : Config) (op : OpCode) : Nat :=
  match op.toNat with
  | 0 => c.latSin.edges
  | 1 => c.latCos.edges
  | 2 => c.latAtan2.edges
  | 3 => c.latIsqrt.edges
  | 4 => c.latMag.edges
  | _ => c.latRsvd.edges

/-- A literal within a listed range (30_encoding.md R69); a `0x` operand counts as the number it writes (log 14). -/
def within (lo hi : Int) (l : Literal) : Prop := lo ≤ l.value ∧ l.value ≤ hi

/-- A literal that `ATAN2` and `MAG` take: a decimal in -32768..32767, or a `0x` operand in 0x0000..0xFFFF (30_encoding.md R69). -/
def signedOperand : Literal → Prop
  | .decimal n => -32768 ≤ n ∧ n ≤ 32767
  | .hex n => n ≤ 0xFFFF

/-- The field of a literal: a decimal's low 16 bits, and a `0x` operand the word directly (30_encoding.md R69). -/
def field : Literal → Word
  | .decimal n => BitVec.ofInt 16 n
  | .hex n => BitVec.ofNat 16 n

/-- The command answers this triple. -/
def answers (i : Instr) (s : State) (c : Completion) : Prop := ∃ t, exec i s = .next t ∧ t.shown = c

/-- The next edge accepts a command (R222). -/
def accepts (s : State) : Prop := s.input.rst = false ∧ s.busy = false ∧ s.input.cmdValid = true

/-- The next edge is a completion edge (R224). -/
def completes (s : State) : Prop := s.input.rst = false ∧ s.busy = true ∧ s.cnt = 0

/-- No coming cycle of the host within `n` edges presents a command. -/
def noCommandFor (s : State) (n : Nat) : Prop := ∀ k, k < n → (s.host.getD k HostCycle.idle).cmdValid = false

/-- The edge step of R226 as a relation on the registers that R226 names: after a reset edge the unspecified ones are unconstrained. -/
def edgeStep (s t : State) : Prop :=
  let i := s.input
  if i.rst = true then
    t.busy = false ∧ t.doneR = false ∧ t.resultR = 0 ∧ t.ovfR = false ∧ t.errR = false
  else if s.busy = false ∧ i.cmdValid = true then
    t.opR = i.cmdOp ∧ t.aR = i.cmdA ∧ t.bR = i.cmdB ∧ t.busy = true ∧ t.cnt.toNat = lat s.config i.cmdOp - 1 ∧
    t.doneR = false ∧ t.resultR = s.resultR ∧ t.ovfR = s.ovfR ∧ t.errR = s.errR
  else if s.busy = false then
    t.doneR = false ∧ t.busy = s.busy ∧ t.cnt = s.cnt ∧ t.opR = s.opR ∧ t.aR = s.aR ∧ t.bR = s.bR ∧
    t.resultR = s.resultR ∧ t.ovfR = s.ovfR ∧ t.errR = s.errR
  else if s.cnt ≠ 0 then
    t.cnt.toNat = s.cnt.toNat - 1 ∧ t.doneR = false ∧ t.busy = s.busy ∧ t.opR = s.opR ∧ t.aR = s.aR ∧ t.bR = s.bR ∧
    t.resultR = s.resultR ∧ t.ovfR = s.ovfR ∧ t.errR = s.errR
  else
    t.shown = result s.config s.rom s.opR s.aR s.bR ∧ t.doneR = true ∧ t.busy = false ∧
    t.cnt = s.cnt ∧ t.opR = s.opR ∧ t.aR = s.aR ∧ t.bR = s.bR

/-- What no command changes when it completes: the configuration, the ROM, `cnt`, the latches, and the host's side. -/
def keepsArchitecture (s t : State) : Prop :=
  t.config = s.config ∧ t.rom = s.rom ∧ t.cnt = s.cnt ∧ t.opR = s.opR ∧ t.aR = s.aR ∧ t.bR = s.bR ∧
  t.booted = s.booted ∧ t.host = s.host

/-- Two states that differ at most in what no port shows: the work registers, the model's count of draws, and, with nothing in flight, `cnt`
and the latches (10_state.md R36). Before the first reset edge the count of draws is the same, since every register is drawn there (log 17). -/
def agreeOutsideHidden (s t : State) : Prop :=
  t.config = s.config ∧ t.rom = s.rom ∧ t.busy = s.busy ∧ t.shown = s.shown ∧ t.doneR = s.doneR ∧ t.booted = s.booted ∧
  t.host = s.host ∧ (s.busy = true → t.cnt = s.cnt ∧ t.opR = s.opR ∧ t.aR = s.aR ∧ t.bR = s.bR) ∧
  (s.booted = false → t.draws = s.draws)

end Sys2Proof.Claims

open Sys2Proof Sys2Proof.Machine Sys2Proof.Claims

/-! ## Encoding -/

/-- R60, R65: every command has one 35-bit word and every 35-bit word is one command; no bit is dropped. -/
def Obligations.DecodeAndEncodeAreInverse : Prop :=
  (∀ i : Instr, decode (encode i) = i) ∧ (∀ c : Command, encode (decode c) = c)

/-- R65: the masked OP field alone selects the command, and A and B are its other two fields. -/
def Obligations.OpFieldSelectsCommand : Prop :=
  ∀ c : Command,
    (decode c).op = c.extractLsb' 32 3 ∧
    (c &&& 0x700000000 = 0x000000000 → decode c = .sin (c.extractLsb' 16 16) (c.extractLsb' 0 16)) ∧
    (c &&& 0x700000000 = 0x100000000 → decode c = .cos (c.extractLsb' 16 16) (c.extractLsb' 0 16)) ∧
    (c &&& 0x700000000 = 0x200000000 → decode c = .atan2 (c.extractLsb' 16 16) (c.extractLsb' 0 16)) ∧
    (c &&& 0x700000000 = 0x300000000 → decode c = .isqrt (c.extractLsb' 16 16) (c.extractLsb' 0 16)) ∧
    (c &&& 0x700000000 = 0x400000000 → decode c = .mag (c.extractLsb' 16 16) (c.extractLsb' 0 16)) ∧
    (c &&& 0x700000000 = 0x500000000 → decode c = .rsvd5 (c.extractLsb' 16 16) (c.extractLsb' 0 16)) ∧
    (c &&& 0x700000000 = 0x600000000 → decode c = .rsvd6 (c.extractLsb' 16 16) (c.extractLsb' 0 16)) ∧
    (c &&& 0x700000000 = 0x700000000 → decode c = .rsvd7 (c.extractLsb' 16 16) (c.extractLsb' 0 16))

/-- R71: the worked encodings, from the line to the word and back. -/
def Obligations.WorkedEncodingsAgree : Prop :=
  ∀ p ∈ [ (TraceLine.sin (.decimal 64), Instr.sin 0x0040 0x0000, (0x000400000 : Command)),
          (.cos (.decimal 192), .cos 0x00C0 0x0000, 0x100C00000),
          (.atan2 (.decimal (-256)) (.decimal 0), .atan2 0xFF00 0x0000, 0x2FF000000),
          (.isqrt (.decimal 65535), .isqrt 0xFFFF 0x0000, 0x3FFFF0000),
          (.mag (.decimal 768) (.decimal 1024), .mag 0x0300 0x0400, 0x403000400),
          (.rsvd (.decimal 7), .rsvd7 0x0000 0x0000, 0x700000000) ],
    p.1.assemble = some (.issue p.2.1) ∧ encode p.2.1 = p.2.2 ∧ decode p.2.2 = p.2.1

/-- 30_encoding.md R69: every command that the assembler gives has its ignored fields 0 (R64); for each form, every literal outside the listed
range is refused in every operand place, decimal or `0x`, and every other is assembled into the fields that the rule lists; `WAIT` is no
command. That a `0x` operand of SIN, COS, ISQRT and RSVD must lie in the range of a decimal is the model's choice (log 14). -/
def Obligations.AssembledCommandsAreWellFormed : Prop :=
  (∀ (t : TraceLine) (i : Instr), t.assemble = some (.issue i) → i.wellFormed = true) ∧
  (∀ l : Literal,
    ((TraceLine.sin l).assemble = none ↔ ¬ within 0 255 l) ∧
    ((TraceLine.cos l).assemble = none ↔ ¬ within 0 255 l) ∧
    ((TraceLine.isqrt l).assemble = none ↔ ¬ within 0 65535 l) ∧
    ((TraceLine.rsvd l).assemble = none ↔ ¬ within 5 7 l)) ∧
  (∀ l m : Literal,
    ((TraceLine.atan2 l m).assemble = none ↔ ¬ (signedOperand l ∧ signedOperand m)) ∧
    ((TraceLine.mag l m).assemble = none ↔ ¬ (signedOperand l ∧ signedOperand m))) ∧
  (∀ l : Literal,
    (within 0 255 l → (TraceLine.sin l).assemble = some (.issue (.sin (field l) 0)) ∧
      (TraceLine.cos l).assemble = some (.issue (.cos (field l) 0))) ∧
    (within 0 65535 l → (TraceLine.isqrt l).assemble = some (.issue (.isqrt (field l) 0))) ∧
    (within 5 7 l → ∃ i, (TraceLine.rsvd l).assemble = some (.issue i) ∧ (i.op.toNat : Int) = l.value ∧ i.a = 0 ∧ i.b = 0)) ∧
  (∀ l m : Literal, signedOperand l → signedOperand m →
    (TraceLine.atan2 l m).assemble = some (.issue (.atan2 (field l) (field m))) ∧
    (TraceLine.mag l m).assemble = some (.issue (.mag (field l) (field m)))) ∧
  (∀ w : Word, (TraceLine.atan2 (.decimal w.toInt) (.hex w.toNat)).assemble = some (.issue (.atan2 w w))) ∧
  TraceLine.wait.assemble = some .wait

/-! ## A step runs the decoded command -/

/-- R224: at a completion edge `step` is `exec` of the command that the latched 35-bit word decodes to, once the host's cycle is over. -/
def Obligations.CompletionEdgeRunsLatchedWord : Prop :=
  ∀ s : State, s.booted = true → completes s →
    step s = exec (decode (s.opR ++ s.aR ++ s.bR)) { s with host := s.host.tail }

/-- The model's own loader (log 5, log 11): the very next step runs exactly the placed command, and the table's reader names it. -/
def Obligations.PlacedCommandRunsNext : Prop :=
  ∀ (s : State) (c : Command),
    decodeTableWord 40 c.toNat = some (decode c) ∧
    step (s.withFetchWord 40 c.toNat) =
      exec (decode c)
        { s with opR := c.extractLsb' 32 3, aR := c.extractLsb' 16 16, bR := c.extractLsb' 0 16, busy := true, cnt := 0,
                 booted := true }

/-! ## The edges -/

/-- R220: a reset edge, whatever else holds. The hypothesis is the model's boot rule (log 6): before the first reset edge the host does not
read in that cycle. -/
def Obligations.ResetEdgeWritesVisibleRegisters : Prop :=
  ∀ s : State, s.booted = true ∨ s.input.reads = false → s.input.rst = true →
    ∃ t, step s = .next t ∧ t.busy = false ∧ t.doneR = false ∧ t.resultR = 0x0000 ∧ t.ovfR = false ∧ t.errR = false ∧
      t.rom = s.rom ∧ t.config = s.config ∧ t.host = s.host.tail ∧ t.booted = true

/-- R221: while `rst` stays 1 every edge leaves the reset state and `cmd_ready` is 0; one edge is enough. -/
def Obligations.HeldResetKeepsResetState : Prop :=
  ∀ (s : State) (n : Nat), s.booted = true ∨ s.input.reads = false →
    (∀ k, k ≤ n → (s.host.getD k HostCycle.idle).rst = true) →
    (∀ k, k ≤ n → ∃ t, runFor k s = .next t ∧ t.outputs.cmdReady = false) ∧
    ∃ t, runFor (n + 1) s = .next t ∧ t.cleanEntry = true ∧ t.rom = s.rom ∧ t.config = s.config

/-- R222: the acceptance edge, from every state, `cmd_ready` before it, the clearing of the accumulator for ISQRT, and what the edge after it
loads into the work registers of ATAN2 and MAG. -/
def Obligations.AcceptanceEdgeLatchesCommand : Prop :=
  ∀ s : State, s.booted = true → accepts s →
    s.outputs.cmdReady = true ∧
    (∃ acc : BitVec 15, (s.input.cmdOp = 0b011 → acc = 0) ∧
      step s = .next
        { s with
          opR := s.input.cmdOp, aR := s.input.cmdA, bR := s.input.cmdB, busy := true,
          cnt := BitVec.ofNat 5 (lat s.config s.input.cmdOp - 1), doneR := false,
          rooter := { s.rooter with acc := acc }, host := s.host.tail }) ∧
    (s.noResetFor 2 → ∃ t, runFor 2 s = .next t ∧
      (s.input.cmdOp = 0b010 → t.divider = dividerSetup s.input.cmdA s.input.cmdB) ∧
      (s.input.cmdOp = 0b100 → t.rooter = magFrontEnd s.input.cmdA s.input.cmdB))

/-- The model's choice (log 18): accepting a command other than ISQRT leaves every work register as it is, `acc` among them. -/
def Obligations.AcceptanceKeepsOtherWorkRegisters : Prop :=
  ∀ s : State, s.booted = true → accepts s →
    ∃ t, step s = .next t ∧ t.divider = s.divider ∧ t.rooter.v = s.rooter.v ∧ t.rooter.ovfP = s.rooter.ovfP ∧
      t.draws = s.draws ∧ (s.input.cmdOp ≠ 0b011 → t.rooter = s.rooter)

/-- R223: a countdown edge, whatever the host drives on the command port. -/
def Obligations.CountdownEdgeDecrements : Prop :=
  ∀ s : State, s.booted = true → s.input.rst = false → s.busy = true → s.cnt ≠ 0 →
    step s = .next
      { s.stepDatapath s.latched with cnt := BitVec.ofNat 5 (s.cnt.toNat - 1), doneR := false, host := s.host.tail } ∧
    (s.stepDatapath s.latched).shown = s.shown

/-- R225: at an idle edge the only write is `done_r <- 0`; the host's cycle is over. -/
def Obligations.IdleEdgeWritesOnlyDone : Prop :=
  ∀ s : State, s.booted = true → s.input.rst = false → s.busy = false → s.input.cmdValid = false →
    step s = .next { s with doneR := false, host := s.host.tail }

/-- R226: the whole edge step, against the rule's pseudocode, from every state of a unit that has been reset. -/
def Obligations.StepRefinesEdgePseudocode : Prop :=
  ∀ s : State, s.booted = true → ∃ t, step s = .next t ∧ edgeStep s t

/-- R28: `done_r` is 1 after exactly the completion edges, so it is high for one cycle. -/
def Obligations.DoneIsHighOneCycleAfterCompletion : Prop :=
  (∀ s t : State, s.booted = true → step s = .next t → (t.doneR = true ↔ completes s)) ∧
  (∀ s t u : State, s.booted = true → step s = .next t → step t = .next u → t.doneR = true → u.doneR = false) ∧
  (∀ s : State, s.outputs.done = s.doneR) ∧ State.reset.doneR = false

/-- 10_state.md section 1: outside reset, the result and the flags change at completion edges only, and the latches at acceptance edges only. -/
def Obligations.RegistersChangeOnlyAtTheirEdges : Prop :=
  ∀ s t : State, s.booted = true → step s = .next t → s.input.rst = false →
    (¬ completes s → t.shown = s.shown) ∧
    (¬ accepts s → t.opR = s.opR ∧ t.aR = s.aR ∧ t.bR = s.bR) ∧
    (completes s → t.shown = resultOf s.config s.rom s.latched)

/-- R30, R35: no port, command or reset writes the ROM or the build-time parameters, and what the host drives is consumed one cycle an edge. -/
def Obligations.BuiltInStateNeverChanges : Prop :=
  ∀ s t : State, step s = .next t → t.rom = s.rom ∧ t.config = s.config ∧ t.host = s.host.tail

/-! ## The operations -/

/-- R105: SIN. The corner cases are those of the ROM of R31. -/
def Obligations.SinWritesTableSine : Prop :=
  (∀ (a b : Word) (s : State),
    exec (.sin a b) s = .next
      { s with resultR := BitVec.ofInt 16 (Claims.sin8 s.rom (a.toNat % 256)), ovfR := false, errR := false,
               doneR := true, busy := false }) ∧
  (∀ (a b : Word) (c : Config), (Instr.sin a b).op = 0b000 ∧ lat c (Instr.sin a b).op = c.latSin.edges) ∧
  (∀ s : State, s.rom = sineTable → ∀ b : Word,
    (∀ p ∈ [(0, 0), (64, 256), (128, 0), (192, -256), (63, 256), (127, 0)],
      answers (.sin (BitVec.ofNat 16 p.1) b) s ⟨BitVec.ofInt 16 p.2, false, false⟩) ∧
    answers (decode 0x000200000) s ⟨0x00B5, false, false⟩) ∧
  (∀ (a a' b b' : Word) (s : State), a.toNat % 256 = a'.toNat % 256 → exec (.sin a b) s = exec (.sin a' b') s)

/-- R106: COS, a quarter turn ahead with 8-bit wrapping. -/
def Obligations.CosWritesShiftedTableSine : Prop :=
  (∀ (a b : Word) (s : State),
    exec (.cos a b) s = .next
      { s with resultR := BitVec.ofInt 16 (Claims.sin8 s.rom ((a.toNat % 256 + 64) % 256)), ovfR := false, errR := false,
               doneR := true, busy := false }) ∧
  (∀ (a b : Word) (c : Config), (Instr.cos a b).op = 0b001 ∧ lat c (Instr.cos a b).op = c.latCos.edges) ∧
  (∀ s : State, s.rom = sineTable → ∀ b : Word,
    (∀ p ∈ [(192, 0), (255, 256), (0, 256), (64, 0), (128, -256), (63, 0)],
      answers (.cos (BitVec.ofNat 16 p.1) b) s ⟨BitVec.ofInt 16 p.2, false, false⟩) ∧
    answers (decode 0x100C00000) s ⟨0x0000, false, false⟩) ∧
  (∀ (a a' b b' : Word) (s : State), a.toNat % 256 = a'.toNat % 256 → exec (.cos a b) s = exec (.cos a' b') s)

/-- R107: COS of an angle is SIN of the angle a quarter turn on, for any B. -/
def Obligations.CosIsSinAQuarterTurnOn : Prop :=
  ∀ (a a' b b' : Word) (s : State), a'.toNat % 256 = (a.toNat % 256 + 64) % 256 → exec (.cos a b) s = exec (.sin a' b') s

/-- R108: the identities of the folded table. The first and third hold whatever the ROM holds. -/
def Obligations.FoldedSineIdentities : Prop :=
  (∀ (rom : Rom) (a : Angle), Machine.sin8 rom (a + 128) = -Machine.sin8 rom a) ∧
  (Machine.sin8 sineTable 0 = 0 ∧ Machine.sin8 sineTable 64 = 256 ∧ Machine.sin8 sineTable 192 = -256) ∧
  (∀ (rom : Rom) (i : Nat), i ≤ 63 →
    Machine.sin8 rom (BitVec.ofNat 8 (64 + i)) = Machine.sin8 rom (BitVec.ofNat 8 (63 - i)))

/-- R109: the exact range of sin² + cos² over all angles, and where its ends are reached. -/
def Obligations.SquareSumStaysInMeasuredRange : Prop :=
  ∀ a : Angle,
    let sum := Machine.sin8 sineTable a ^ 2 + Machine.sin8 sineTable (a + 64) ^ 2
    63809 ≤ sum ∧ sum ≤ 65572 ∧
    (sum = 65572 ↔ a ∈ [1, 62, 65, 126, 129, 190, 193, 254]) ∧
    (sum = 63809 ↔ a ∈ [30, 33, 94, 97, 158, 161, 222, 225])

/-- R31: each ROM entry is sin(i · 90° / 64) · 256 rounded to the nearest integer, no exact value lies within 0.0007 of a tie, entries 26
and 27 lie nearest one, and the contents are those of the rule. -/
def Obligations.RomEntriesAreRoundedSines : Prop :=
  let exactSine : Nat → ℝ := fun i => Real.sin (i * (Real.pi / 2) / 64) * 256
  (∀ i : Fin 64, |((sineTable[i]).toInt : ℝ) - exactSine i.val| < 1 / 2 - 7 / 10000 ∧
    (i.val ≠ 26 → i.val ≠ 27 → |((sineTable[i]).toInt : ℝ) - exactSine i.val| < 49 / 100) ∧
    0 ≤ (sineTable[i]).toInt ∧ (sineTable[i]).toInt ≤ 256) ∧
  |exactSine 26 - 152.499| < 5 / 10000 ∧ |exactSine 27 - 157.499| < 5 / 10000 ∧
  sineTable.toList.map BitVec.toInt =
    [0, 6, 13, 19, 25, 31, 38, 44, 50, 56, 62, 68, 74, 80, 86, 92] ++
    [98, 104, 109, 115, 121, 126, 132, 137, 142, 147, 152, 157, 162, 167, 172, 177] ++
    [181, 185, 190, 194, 198, 202, 206, 209, 213, 216, 220, 223, 226, 229, 231, 234] ++
    [237, 239, 241, 243, 245, 247, 248, 250, 251, 252, 253, 254, 255, 255, 256, 256]

/-- R110: the error of the sine against the exact one, its bound, its worst angles, and the table's rounding in quadrants 0 and 2. -/
def Obligations.SineErrorIsBounded : Prop :=
  let exactSine : Angle → ℝ := fun a => Real.sin (a.toNat * (2 * Real.pi) / 256) * 256
  let error : Angle → ℝ := fun a => |(Machine.sin8 sineTable a : ℝ) - exactSine a|
  (∀ a : Angle, error a ≤ 657 / 100 ∧ error a ≤ error 122 ∧ error a ≤ error 250) ∧
  Machine.sin8 sineTable 122 = 31 ∧ |exactSine 122 - 37.56| < 1 / 100 ∧
  Machine.sin8 sineTable 250 = -31 ∧ |exactSine 250 + 37.56| < 1 / 100 ∧
  (∀ a : Angle, a.toNat / 64 = 0 ∨ a.toNat / 64 = 2 → error a ≤ 1 / 2)

/-- R41: SIN and COS read one ROM word, at `idx` or `63 - idx`, and no other command reads the ROM: other ROM contents elsewhere change
nothing. -/
def Obligations.OneRomWordPerSineCommand : Prop :=
  (∀ a b : Word, ∃ i : Fin 64, (i.val = a.toNat % 64 ∨ i.val = 63 - a.toNat % 64) ∧
    ∀ (s : State) (rom : Rom), rom[i] = s.rom[i] →
      ∃ c, answers (.sin a b) s c ∧ answers (.sin a b) { s with rom := rom } c) ∧
  (∀ a b : Word, ∃ i : Fin 64, (i.val = a.toNat % 64 ∨ i.val = 63 - a.toNat % 64) ∧
    ∀ (s : State) (rom : Rom), rom[i] = s.rom[i] →
      ∃ c, answers (.cos a b) s c ∧ answers (.cos a b) { s with rom := rom } c) ∧
  (∀ (i : Instr) (s : State) (rom : Rom), i.op ≠ 0 → i.op ≠ 1 →
    ∃ t, exec i s = .next t ∧ exec i { s with rom := rom } = .next { t with rom := rom })

/-- R122: ATAN2. The corner cases are those of the default shift. -/
def Obligations.Atan2WritesCorrectedRatioAngle : Prop :=
  (∀ (a b : Word) (s : State),
    exec (.atan2 a b) s = .next
      { s.stepDivider a b with
        resultR := BitVec.ofInt 16 (Claims.atan8 s.config.atanShift.amount a.toInt b.toInt), ovfR := false, errR := false,
        doneR := true, busy := false }) ∧
  (∀ (a b : Word) (c : Config), (Instr.atan2 a b).op = 0b010 ∧ lat c (Instr.atan2 a b).op = c.latAtan2.edges) ∧
  (∀ s : State, s.config.atanShift.amount = 2 →
    (∀ p ∈ [ (0, 0, 0), (256, 256, 64), (256, -256, 64), (-256, -256, 192), (-256, 256, 192), (255, 256, 63), (256, 255, 1),
             (-32768, 32767, 255) ],
      answers (.atan2 (BitVec.ofInt 16 p.1) (BitVec.ofInt 16 p.2.1)) s ⟨BitVec.ofNat 16 p.2.2, false, false⟩) ∧
    (∀ w : Word, 0 < w.toInt → answers (.atan2 w 0) s ⟨64, false, false⟩ ∧ answers (.atan2 0 w) s ⟨0, false, false⟩) ∧
    (∀ w : Word, w.toInt < 0 → answers (.atan2 w 0) s ⟨192, false, false⟩ ∧ answers (.atan2 0 w) s ⟨128, false, false⟩) ∧
    answers (decode 0x2FF000000) s ⟨0x00C0, false, false⟩) ∧
  (∀ (a b : Word) (s t : State), exec (.atan2 a b) s = .next t → t.resultR.extractLsb' 8 8 = 0)

/-- R121, R126: the magnitudes, the branch and the ratio; the divisor is never 0 where the division happens. -/
def Obligations.RatioIsBoundedAndDivisorNonzero : Prop :=
  ∀ a b : Word,
    (magnitude a : Int) = |a.toInt| ∧ magnitude a ≤ 32768 ∧ magnitude (0x8000 : Word) = 32768 ∧
    (inverted a b = true ↔ |b.toInt| < |a.toInt|) ∧
    (¬ (b.toInt = 0 ∧ a.toInt = 0) →
      1 ≤ maxMagnitude a b ∧ minMagnitude a b ≤ maxMagnitude a b ∧
      (minMagnitude a b : Int) = min |b.toInt| |a.toInt| ∧ (maxMagnitude a b : Int) = max |b.toInt| |a.toInt| ∧
      ratio a b = (min a.toInt.natAbs b.toInt.natAbs * 256) / (max a.toInt.natAbs b.toInt.natAbs) ∧
      ratio a b ≤ 256 ∧ (ratio a b = 256 ↔ |a.toInt| = |b.toInt|) ∧ (inverted a b = true → ratio a b ≤ 255))

/-- R127: the answer lies in the closed quadrant interval of the signs, for both shifts, and the half-open form fails at the rule's
points. -/
def Obligations.Atan2StaysInClosedQuadrant : Prop :=
  (∀ (a b : Word) (s t : State), ¬ (b.toInt = 0 ∧ a.toInt = 0) → exec (.atan2 a b) s = .next t →
    (0 ≤ b.toInt → 0 ≤ a.toInt → t.resultR.toNat ≤ 64) ∧
    (b.toInt < 0 → 0 ≤ a.toInt → 64 ≤ t.resultR.toNat ∧ t.resultR.toNat ≤ 128) ∧
    (b.toInt < 0 → a.toInt < 0 → 128 ≤ t.resultR.toNat ∧ t.resultR.toNat ≤ 192) ∧
    (0 ≤ b.toInt → a.toInt < 0 → (192 ≤ t.resultR.toNat ∧ t.resultR.toNat ≤ 255) ∨ t.resultR.toNat = 0)) ∧
  (∀ s : State,
    answers (.atan2 256 0) s ⟨64, false, false⟩ ∧ answers (.atan2 0 (-256)) s ⟨128, false, false⟩ ∧
    answers (.atan2 65 1) s ⟨64, false, false⟩ ∧ answers (.atan2 1 (-65)) s ⟨128, false, false⟩ ∧
    (s.config.atanShift.amount = 2 →
      answers (.atan2 256 256) s ⟨64, false, false⟩ ∧ answers (.atan2 (-256) (-256)) s ⟨192, false, false⟩))

/-- R128: the axis values, exactly, under both shifts. -/
def Obligations.Atan2AxisValuesAreExact : Prop :=
  ∀ s : State,
    answers (.atan2 0 0) s ⟨0, false, false⟩ ∧
    (∀ y : Word, 0 < y.toInt → answers (.atan2 y 0) s ⟨64, false, false⟩) ∧
    (∀ y : Word, y.toInt < 0 → answers (.atan2 y 0) s ⟨192, false, false⟩) ∧
    (∀ x : Word, 0 < x.toInt → answers (.atan2 0 x) s ⟨0, false, false⟩) ∧
    (∀ x : Word, x.toInt < 0 → answers (.atan2 0 x) s ⟨128, false, false⟩)

/-- R141, R142: ISQRT is the exact root, bracketed, for every operand. -/
def Obligations.IsqrtWritesExactRoot : Prop :=
  (∀ (a b : Word) (s : State), ∃ r : Nat, r * r ≤ a.toNat ∧ a.toNat < (r + 1) * (r + 1) ∧ r ≤ 255 ∧
    exec (.isqrt a b) s = .next
      { s.stepIsqrt a with resultR := BitVec.ofNat 16 r, ovfR := false, errR := false, doneR := true, busy := false }) ∧
  (∀ (a b : Word) (c : Config), (Instr.isqrt a b).op = 0b011 ∧ lat c (Instr.isqrt a b).op = c.latIsqrt.edges) ∧
  (∀ (s : State) (b : Word),
    ∀ p ∈ [(0, 0), (1, 1), (2, 1), (3, 1), (65025, 255), (65024, 254), (65535, 255)],
      answers (.isqrt (BitVec.ofNat 16 p.1) b) s ⟨BitVec.ofNat 16 p.2, false, false⟩) ∧
  (∀ s : State, answers (decode 0x3FFFF0000) s ⟨0x00FF, false, false⟩)

/-- R144: the trials of positions 14 down to 8 are rejected, so the search gives the root from every start position 7 to 14. -/
def Obligations.TrialsAboveBitSevenAreRejected : Prop :=
  (∀ (v : Word) (p : Nat), 8 ≤ p → p ≤ 14 → rootTrial v p 0 = 0) ∧
  (∀ (v : Word) (start : Nat), 7 ≤ start → start ≤ 14 →
    ((List.range (start + 1)).reverse.foldl (fun acc p => rootTrial v p acc) 0).toNat = Nat.sqrt v.toNat)

/-- R161: MAG. The corner cases are those of the default shift. -/
def Obligations.MagWritesRescaledRoot : Prop :=
  (∀ (a b : Word) (s : State),
    exec (.mag a b) s = .next
      { s.stepMag a b with
        resultR := BitVec.ofNat 16 (Nat.sqrt (magSum a.toInt b.toInt % 65536) <<< s.config.magShift.val),
        ovfR := decide (65536 ≤ magSum a.toInt b.toInt), errR := false, doneR := true, busy := false }) ∧
  (∀ (a b : Word) (c : Config), (Instr.mag a b).op = 0b100 ∧ lat c (Instr.mag a b).op = c.latMag.edges) ∧
  (∀ s : State, s.config.magShift = 4 →
    (∀ p ∈ [ (0, 0, 0, false), (15, 15, 0, false), (16, 0, 16, false), (4095, 0, 4080, false), (4096, 0, 0, true),
             (2896, 2896, 4080, false), (2897, 2897, 80, true), (-32768, -32768, 0, true), (-768, -1024, 1280, false) ],
      answers (.mag (BitVec.ofInt 16 p.1) (BitVec.ofInt 16 p.2.1)) s ⟨BitVec.ofNat 16 p.2.2.1, p.2.2.2, false⟩) ∧
    answers (decode 0x403000400) s ⟨0x0500, false, false⟩) ∧
  (∀ (a b : Word) (s t : State), exec (.mag a b) s = .next t →
    0 ≤ t.resultR.toInt ∧ t.resultR.toNat ≤ 255 * 2 ^ s.config.magShift.val)

/-- R164: the overflow flag and its boundary; reducing each term first gives the same reduced sum. -/
def Obligations.MagOverflowBoundaryIsExact : Prop :=
  (∀ (a b : Word) (s t : State), exec (.mag a b) s = .next t →
    (t.ovfR = true ↔ 65536 ≤ magSum a.toInt b.toInt) ∧
    t.resultR = BitVec.ofNat 16 (Nat.sqrt (magSum a.toInt b.toInt % 65536) <<< s.config.magShift.val)) ∧
  (∀ a b : Int, ((a.natAbs * a.natAbs) >>> 8 % 65536 + (b.natAbs * b.natAbs) >>> 8 % 65536) % 65536 = magSum a b % 65536) ∧
  (∀ (a : Word) (s t : State), exec (.mag a 0) s = .next t → (t.ovfR = true ↔ 4096 ≤ |a.toInt|)) ∧
  magSum 4096 0 = 65536 ∧ magSum 4095 0 = 65504 ∧
  (∀ (a b : Word) (s t : State), |a.toInt| = |b.toInt| → exec (.mag a b) s = .next t → (t.ovfR = true ↔ 2897 ≤ |a.toInt|))

/-- R166: MAG depends on the magnitudes only, is symmetric, and is monotone below the overflow boundary and not across it. -/
def Obligations.MagIsSymmetricAndMonotone : Prop :=
  (∀ (a b a' b' : Word) (s : State), |a.toInt| = |a'.toInt| → |b.toInt| = |b'.toInt| →
    ∃ c, answers (.mag a b) s c ∧ answers (.mag a' b') s c ∧ answers (.mag b a) s c) ∧
  (∀ (a b a' b' : Word) (s t t' : State), |a.toInt| ≤ |a'.toInt| → |b.toInt| ≤ |b'.toInt| →
    exec (.mag a b) s = .next t → exec (.mag a' b') s = .next t' → t.ovfR = false → t'.ovfR = false →
    t.resultR.toNat ≤ t'.resultR.toNat) ∧
  (∀ (a b : Word) (s t : State), s.config.magShift = 4 → exec (.mag a b) s = .next t → t.ovfR = false →
    t.resultR.toNat =
      16 * Nat.sqrt ((a.toInt.natAbs * a.toInt.natAbs) >>> 8 + (b.toInt.natAbs * b.toInt.natAbs) >>> 8)) ∧
  (∀ s : State, ∃ t t', exec (.mag 2897 2897) s = .next t ∧ t.ovfR = true ∧ exec (.mag 2896 2896) s = .next t' ∧
    t'.ovfR = false ∧ t.resultR.toNat < t'.resultR.toNat)

/-- R66: a reserved command is accepted like any other, is in flight for `LAT_RSVD` edges, and completes with the error flag, alike for the
three codes. That its acceptance leaves the accumulator as it is is the model's choice (log 18). -/
def Obligations.ReservedOpsCompleteWithError : Prop :=
  (∀ (a b : Word) (s : State),
    exec (.rsvd5 a b) s = .next { s with resultR := 0x0000, ovfR := false, errR := true, doneR := true, busy := false } ∧
    exec (.rsvd6 a b) s = .next { s with resultR := 0x0000, ovfR := false, errR := true, doneR := true, busy := false } ∧
    exec (.rsvd7 a b) s = .next { s with resultR := 0x0000, ovfR := false, errR := true, doneR := true, busy := false }) ∧
  (∀ s : State, s.booted = true → accepts s → s.input.cmdOp ∈ [5, 6, 7] → s.noResetFor (s.config.latRsvd.edges + 1) →
    (∀ k, 1 ≤ k → k ≤ s.config.latRsvd.edges → ∃ t, runFor k s = .next t ∧ t.busy = true) ∧
    ∃ t, runFor (s.config.latRsvd.edges + 1) s = .next t ∧
      t.resultR = 0x0000 ∧ t.ovfR = false ∧ t.errR = true ∧ t.doneR = true ∧ t.busy = false ∧
      t.divider = s.divider ∧ t.rooter = s.rooter ∧ t.rom = s.rom ∧ t.config = s.config)

/-- R201: which status code each command's completion leaves. -/
def Obligations.StatusCodeNamesItsCause : Prop :=
  ∀ (i : Instr) (s : State), ∃ t, exec i s = .next t ∧ t.shown = result s.config s.rom i.op i.a i.b ∧
    (t.status = .ok ↔ t.errR = false ∧ t.ovfR = false) ∧ (t.status = .magOverflow ↔ t.errR = false ∧ t.ovfR = true) ∧
    (t.status = .reservedOp ↔ t.errR = true ∧ t.ovfR = false) ∧ t.status ≠ .neverProduced ∧
    (t.status = .ok ↔ i.op.toNat ≤ 3 ∨ i.op = 4 ∧ magSum i.a.toInt i.b.toInt < 65536) ∧
    (t.status = .reservedOp ↔ 5 ≤ i.op.toNat) ∧
    (t.status = .reservedOp → t.resultR = 0x0000) ∧
    (t.status = .magOverflow ↔ i.op = 4 ∧ 65536 ≤ magSum i.a.toInt i.b.toInt)

/-! ## Frames and independence -/

/-- The frame of SIN, COS and the reserved ops: nothing changes but the result, the flags, `done_r` and `busy`; every ROM word reads as
before and no work register changes (R111, R66). -/
def Obligations.FrameOfOpsWithoutWorkRegisters : Prop :=
  ∀ (i : Instr) (s t : State), i.op ≠ 2 → i.op ≠ 3 → i.op ≠ 4 → exec i s = .next t →
    keepsArchitecture s t ∧ (∀ k : RomIndex, romRead t.rom k = romRead s.rom k) ∧
    t.divider = s.divider ∧ t.rooter = s.rooter ∧ t.draws = s.draws

/-- The frame of ATAN2, ISQRT and MAG: beside the result, the flags, `done_r` and `busy`, each changes its own hidden work registers only
(R124, R143, R163), and the model's count of draws. -/
def Obligations.FrameOfOpsWithWorkRegisters : Prop :=
  ∀ (a b : Word) (s t : State),
    (exec (.atan2 a b) s = .next t →
      keepsArchitecture s t ∧ (∀ k : RomIndex, romRead t.rom k = romRead s.rom k) ∧ t.rooter = s.rooter) ∧
    (exec (.isqrt a b) s = .next t →
      keepsArchitecture s t ∧ (∀ k : RomIndex, romRead t.rom k = romRead s.rom k) ∧ t.divider = s.divider) ∧
    (exec (.mag a b) s = .next t →
      keepsArchitecture s t ∧ (∀ k : RomIndex, romRead t.rom k = romRead s.rom k) ∧ t.divider = s.divider)

/-- R12, R236: a triple depends on the op, the two operands, the ROM and the two shifts; not on the latencies, nor on what ran before. -/
def Obligations.ResultDependsOnCommandAlone : Prop :=
  ∀ (i : Instr) (s t : State), s.rom = t.rom → s.config.magShift = t.config.magShift →
    s.config.atanShift = t.config.atanShift →
    ∃ c : Completion, answers i s c ∧ answers i t c

/-- R64: an ignored bit changes no state that follows, and no latency. -/
def Obligations.IgnoredBitsHaveNoEffect : Prop :=
  ∀ (a a' b b' : Word) (s : State) (c : Config),
    (a.extractLsb' 0 8 = a'.extractLsb' 0 8 →
      exec (.sin a b) s = exec (.sin a' b') s ∧ exec (.cos a b) s = exec (.cos a' b') s ∧
      latencyOf c (Instr.sin a b).op = latencyOf c (Instr.sin a' b').op ∧
      latencyOf c (Instr.cos a b).op = latencyOf c (Instr.cos a' b').op) ∧
    exec (.isqrt a b) s = exec (.isqrt a b') s ∧
    latencyOf c (Instr.isqrt a b).op = latencyOf c (Instr.isqrt a b').op

/-- R229, R232: at an edge with a command in flight and no reset, what the host drives on the command port is not sampled. -/
def Obligations.BusyUnitIgnoresCommandPort : Prop :=
  ∀ (s : State) (c c' : HostCycle) (rest : List HostCycle), s.booted = true → s.busy = true → c.rst = false → c'.rst = false →
    step { s with host := c :: rest } = step { s with host := c' :: rest }

/-- R34, R46: no step reads the result, the flags or `done_r`: with other values in them, every other register comes out the same. -/
def Obligations.OutputRegistersAreNeverRead : Prop :=
  ∀ (s t : State) (w : Word) (o e d : Bool), step s = .next t →
    ∃ t', step { s with resultR := w, ovfR := o, errR := e, doneR := d } = .next t' ∧
      { t' with resultR := t.resultR, ovfR := t.ovfR, errR := t.errR } = t

/-- R24, R29, R36: what reset leaves unspecified is unobservable. Two units that differ in nothing but the hidden registers show the same
outputs and the same completions after every number of edges, whatever the free values are. -/
def Obligations.HiddenRegistersAreUnobservable : Prop :=
  ∀ (n : Nat) (s t : State), agreeOutsideHidden s t →
    observations n s = observations n t ∧
    ∀ u, runFor n s = .next u → ∃ v, runFor n t = .next v ∧ agreeOutsideHidden u v ∧ u.outputs = v.outputs

/-- R33: the output ports; `cmd_ready` follows `busy` and `rst`, and no output follows the command port or the host's reads. -/
def Obligations.OutputsAreDrivenFromRegisters : Prop :=
  ∀ (s : State) (c c' : HostCycle) (rest : List HostCycle),
    (s.outputs.cmdReady = true ↔ s.busy = false ∧ s.input.rst = false) ∧
    s.outputs.busy = s.busy ∧ s.outputs.done = s.doneR ∧ s.outputs.result = s.resultR ∧
    s.outputs.ovf = s.ovfR ∧ s.outputs.err = s.errR ∧
    (c.rst = c'.rst → State.outputs { s with host := c :: rest } = State.outputs { s with host := c' :: rest })

/-! ## Runs -/

/-- R227, R230: a command accepted now completes after exactly `LAT(op)` more edges, and until then the outputs show the previous completion. -/
def Obligations.CommandCompletesAfterItsLatency : Prop :=
  ∀ s : State, s.booted = true → accepts s → s.noResetFor (lat s.config s.input.cmdOp + 1) →
    (∀ k, 1 ≤ k → k ≤ lat s.config s.input.cmdOp →
      ∃ t, runFor k s = .next t ∧ t.busy = true ∧ t.doneR = false ∧ t.shown = s.shown ∧ t.outputs.cmdReady = false) ∧
    ∃ t, runFor (lat s.config s.input.cmdOp + 1) s = .next t ∧ t.doneR = true ∧ t.busy = false ∧
      t.shown = result s.config s.rom s.input.cmdOp s.input.cmdA s.input.cmdB

/-- R200: a unit that has been reset never stops, and whatever is in flight completes within `cnt + 1` edges unless a reset comes. -/
def Obligations.UnitNeverHangs : Prop :=
  (∀ s : State, s.booted = true → ∃ t, step s = .next t ∧ t.booted = true) ∧
  (∀ s : State, s.booted = true → s.busy = true → s.noResetFor (s.cnt.toNat + 1) →
    ∃ t, runFor (s.cnt.toNat + 1) s = .next t ∧ t.doneR = true ∧ t.busy = false ∧
      t.shown = result s.config s.rom s.opR s.aR s.bR)

/-- R235: without a reset between them, two acceptances are at least `LAT(o) + 1` edges apart, and a command presented then is accepted: with
the default latencies every 2 edges for SIN and every 17 for MAG. -/
def Obligations.AcceptancesAreSpaced : Prop :=
  (∀ (s t : State) (k : Nat), s.booted = true → accepts s → 1 ≤ k → s.noResetFor k → runFor k s = .next t → accepts t →
    lat s.config s.input.cmdOp + 1 ≤ k) ∧
  (∀ s : State, s.booted = true → accepts s → s.noResetFor (lat s.config s.input.cmdOp + 2) →
    (s.host.getD (lat s.config s.input.cmdOp + 1) HostCycle.idle).cmdValid = true →
    ∃ t, runFor (lat s.config s.input.cmdOp + 1) s = .next t ∧ accepts t) ∧
  lat Config.reference 0 + 1 = 2 ∧ lat Config.reference 4 + 1 = 17

/-- R234: a reset edge abandons the command in flight; no `done` follows for it and the result is 0x0000 until another command comes. -/
def Obligations.ResetAbandonsCommandInFlight : Prop :=
  ∀ (s : State) (n : Nat), s.booted = true → s.busy = true → s.input.rst = true → noCommandFor s.tick n →
    ∃ t, runFor (n + 1) s = .next t ∧ t.busy = false ∧ t.doneR = false ∧ t.resultR = 0x0000

/-- R214, R225: with nothing in flight and nothing asked of it the unit keeps every register but `done_r`, for any number of edges. -/
def Obligations.IdleUnitKeepsItsRegisters : Prop :=
  ∀ (s : State) (n : Nat), s.booted = true → s.busy = false → s.noResetFor (n + 1) → noCommandFor s (n + 1) →
    runFor (n + 1) s = .next { s with doneR := false, host := s.host.drop (n + 1) }

/-- R231: a host that issues one command to a launch state and waits sees exactly that command's triple, and samples it in the cycle with
`done = 1`. It rests on the model's host (log 14). -/
def Obligations.WaitedCommandShowsItsResult : Prop :=
  ∀ (s : State) (i : Instr), s.booted = true → s.cleanEntry = true →
    observations (lat s.config i.op + 1) (s.withTrace [.issue i, .wait] (lat s.config i.op + 1)) =
      [result s.config s.rom i.op i.a i.b] ∧
    ∃ p, (Session.start s [.issue i, .wait]).runFor (lat s.config i.op + 1) = .next p ∧ p.unit.doneR = true ∧
      p.unit.input.reads = true ∧ p.sampled = [result s.config s.rom i.op i.a i.b] ∧ p.lines = []

/-- R231, R238, R46: a trace of commands, each with a `WAIT` after it, ends in the state after its last completion and in no earlier one; its
observation, and what its `WAIT`s sample, is the commands' triples in order. Two commands issued at once and then two `WAIT`s sample both
triples, as program 3 of 95_test_vectors.md begins. It rests on the model's host (log 14). -/
def Obligations.TraceEndsWithItsResultsInOrder : Prop :=
  ∀ s : State, s.booted = true → s.cleanEntry = true →
    (∀ is : List Instr,
      let edges := (is.map fun i => lat s.config i.op + 1).sum
      let results := is.map fun i => result s.config s.rom i.op i.a i.b
      let p := Session.start s (is.flatMap fun i => [.issue i, .wait])
      (∃ q, p.endWithin edges = some q ∧ p.runFor edges = .next q ∧ q.observed = results ∧ q.sampled = results ∧ q.lines = []) ∧
      ∀ n, n < edges → p.endWithin n = none) ∧
    (∀ i j : Instr,
      let edges := lat s.config i.op + 1 + (lat s.config j.op + 1)
      let results := [result s.config s.rom i.op i.a i.b, result s.config s.rom j.op j.a j.b]
      let p := Session.start s [.issue i, .issue j, .wait, .wait]
      ∃ q, p.endWithin edges = some q ∧ p.runFor edges = .next q ∧ q.observed = results ∧ q.sampled = results ∧ q.lines = [])

/-- R231, R234, R238: a `WAIT` with nothing in flight samples nothing, however long it waits, and a run whose command a reset abandons does not
end unless the command is issued again. It rests on the model's host (log 14). -/
def Obligations.RunStaysOpenWithoutItsCompletions : Prop :=
  ∀ (s : State) (n : Nat), s.booted = true → s.cleanEntry = true →
    (∀ lines : List HostAction, ∃ p, (Session.start s (.wait :: lines)).runFor n = .next p ∧
      p.sampled = [] ∧ p.observed = [] ∧ p.lines = .wait :: lines ∧ p.stuck = true) ∧
    (∀ (i : Instr) (k : Nat), 1 ≤ k → k ≤ lat s.config i.op →
      (Session.start s [.issue i, .reset k]).endWithin n = none ∧
      ∃ q, (Session.start s [.issue i, .reset k, .issue i, .wait]).endWithin (k + lat s.config i.op + 2) = some q ∧
        q.observed = [result s.config s.rom i.op i.a i.b] ∧ q.sampled = q.observed)

/-! ## Boot, reset and configuration -/

/-- The model's boot rule (log 6), from R37 and R228: when exactly a step, and a read, is a fault of the host, a `WAIT` that watches `done` among
them (log 19); and an edge without reset or fault before the first reset edge leaves nothing of what the registers held (log 17). -/
def Obligations.HostFaultsOnlyBeforeFirstReset : Prop :=
  ∀ s : State,
    (step s = .fault .readBeforeReset ↔ s.booted = false ∧ s.input.reads = true) ∧
    (step s = .fault .commandBeforeReset ↔
      s.booted = false ∧ s.input.reads = false ∧ s.input.cmdValid = true ∧ s.input.rst = false) ∧
    (s.readOutputs = .fault .readBeforeReset ↔ s.booted = false) ∧
    (s.booted = true → s.readOutputs = .next s.outputs) ∧
    (s.booted = false → ∀ lines, (Session.start s (.wait :: lines)).edge = .fault .readBeforeReset) ∧
    (s.booted = false → s.bootFault = none → s.input.rst = false →
      ∃ t, step s = .next t ∧ t.booted = false ∧ t.rom = s.rom ∧ t.config = s.config ∧
        ∀ s' : State, s'.booted = false → s'.config = s.config → s'.rom = s.rom → s'.draws = s.draws → s'.host = s.host →
          step s' = .next t)

/-- R239: `clean_entry` is the conjunction the rule gives, and holds after every reset edge. -/
def Obligations.CleanEntryHoldsAfterReset : Prop :=
  (∀ s : State, s.cleanEntry = true ↔
    s.busy = false ∧ s.doneR = false ∧ s.resultR = 0x0000 ∧ s.ovfR = false ∧ s.errR = false) ∧
  (∀ s t : State, s.input.rst = true → step s = .next t → t.cleanEntry = true) ∧
  State.reset.cleanEntry = true

/-- R228: one reset edge boots a unit at power-up, whatever its registers hold; nothing else needs setting up. -/
def Obligations.OneResetEdgeBootsTheUnit : Prop :=
  ∀ (c : Config) (k : Nat) (h : HostCycle) (rest : List HostCycle), h.rst = true → h.reads = false →
    ∃ t, step (State.powerUp c k (h :: rest)) = .next t ∧ t.cleanEntry = true ∧ t.Inv ∧ t.config = c ∧ t.host = rest

/-- R6, R7, R8 and decision D34: which configurations exist, and the default. -/
def Obligations.OnlyAdmittedConfigurationsExist : Prop :=
  (∀ p : Config.Parameters,
    (∃ c, Config.ofParameters p = .ok c) ↔
      p.magShift ≤ 7 ∧ (p.atanShift = 2 ∨ p.atanShift = 3) ∧ (1 ≤ p.latSin ∧ p.latSin ≤ 32) ∧ (1 ≤ p.latCos ∧ p.latCos ≤ 32) ∧
      (1 ≤ p.latAtan2 ∧ p.latAtan2 ≤ 32) ∧ (1 ≤ p.latIsqrt ∧ p.latIsqrt ≤ 32) ∧ (1 ≤ p.latMag ∧ p.latMag ≤ 32) ∧
      (1 ≤ p.latRsvd ∧ p.latRsvd ≤ 32)) ∧
  (∀ (p : Config.Parameters) (c : Config), Config.ofParameters p = .ok c →
    c.magShift.val = p.magShift ∧ c.atanShift.amount = p.atanShift ∧ c.latSin.edges = p.latSin ∧ c.latCos.edges = p.latCos ∧
    c.latAtan2.edges = p.latAtan2 ∧ c.latIsqrt.edges = p.latIsqrt ∧ c.latMag.edges = p.latMag ∧ c.latRsvd.edges = p.latRsvd) ∧
  Config.ofParameters { magShift := 4, atanShift := 2, latSin := 1, latCos := 1, latAtan2 := 10, latIsqrt := 15, latMag := 16,
                        latRsvd := 1 } = .ok State.reset.config

/-! ## Invariants -/

/-- `State.Inv` (R22, R23, R28, R30, R66, R201, R231) is kept by every step, whatever the host does. -/
def Obligations.StepKeepsMachineInvariant : Prop :=
  ∀ s t : State, s.Inv → step s = .next t → t.Inv

/-- `State.Inv` holds of the reset state, and after a reset edge of any unit with the ROM of R31. -/
def Obligations.ResetEstablishesMachineInvariant : Prop :=
  State.reset.Inv ∧ ∀ s t : State, s.rom = sineTable → s.input.rst = true → step s = .next t → t.Inv

/-! ## The reference datapaths -/

/-- R124: under the default latency the restoring divider ends with the ratio in `Q`, and its finalise stage drives the very word that the
completion writes. -/
def Obligations.DividerEndsWithAtan2Result : Prop :=
  ∀ s : State, s.booted = true → accepts s → s.input.cmdOp = 2 → s.config.latAtan2.edges = 10 → s.noResetFor 11 →
    ∃ t, runFor 11 s = .next t ∧ t.doneR = true ∧
      dividerFinalise t.config.atanShift t.divider = t.resultR ∧
      (¬ (s.input.cmdB.toInt = 0 ∧ s.input.cmdA.toInt = 0) →
        t.divider.q.toNat =
          (min s.input.cmdA.toInt.natAbs s.input.cmdB.toInt.natAbs * 256) /
            (max s.input.cmdA.toInt.natAbs s.input.cmdB.toInt.natAbs))

/-- R143, R145: under the default latency the bit-serial search ends with the exact root in `acc`, which is the word the completion writes. -/
def Obligations.BitSerialSearchEndsWithRoot : Prop :=
  ∀ s : State, s.booted = true → accepts s → s.input.cmdOp = 3 → s.config.latIsqrt.edges = 15 → s.noResetFor 16 →
    ∃ t, runFor 16 s = .next t ∧ t.doneR = true ∧ t.rooter.acc.toNat = Nat.sqrt s.input.cmdA.toNat ∧
      t.resultR = t.rooter.acc.setWidth 16

/-- R163: under the default latency the pipe ends with the root of the reduced sum in `acc` and the flag in `ovf_p`, which are what the
completion writes. -/
def Obligations.MagPipeEndsWithMagResult : Prop :=
  ∀ s : State, s.booted = true → accepts s → s.input.cmdOp = 4 → s.config.latMag.edges = 16 → s.noResetFor 17 →
    ∃ t, runFor 17 s = .next t ∧ t.doneR = true ∧
      t.rooter.acc.toNat = Nat.sqrt (magSum s.input.cmdA.toInt s.input.cmdB.toInt % 65536) ∧
      t.resultR = t.rooter.acc.setWidth 16 <<< s.config.magShift.val ∧ t.ovfR = t.rooter.ovfP
end

