-- ==== Sys2Proof/Laws/Ops.lean ====
section
/-! SUPPORT. What the shared operations do, said once: the square root, the latency table, the decoder's fields, the meanings. -/

namespace Sys2Proof.Machine

/-- The search for a root stays within its bound, its square fits, and no greater root within the bound fits. -/
theorem greatestRoot_spec (v bound : Nat) :
    greatestRoot v bound ≤ bound ∧ greatestRoot v bound * greatestRoot v bound ≤ v ∧
      ∀ r, r ≤ bound → r * r ≤ v → r ≤ greatestRoot v bound := by
  induction bound with
  | zero => exact ⟨le_refl 0, Nat.zero_le v, fun r hr _ => hr⟩
  | succ n ih =>
    unfold greatestRoot
    split
    · next h => exact ⟨le_refl _, h, fun r hr _ => hr⟩
    · next h =>
      refine ⟨by omega, ih.2.1, fun r hr hv => ?_⟩
      rcases Nat.lt_or_ge n r with hlt | hge
      · have : r = n + 1 := by omega
        subst this
        exact absurd hv h
      · exact ih.2.2 r hge hv

/-- The root of a 16-bit value is its natural square root. -/
theorem isqrt_eq_sqrt (v : Word) : isqrt v = Nat.sqrt v.toNat := by
  obtain ⟨_, hsq, hmax⟩ := greatestRoot_spec v.toNat 255
  refine le_antisymm (Nat.le_sqrt.mpr hsq) (hmax _ ?_ (Nat.sqrt_le v.toNat))
  have : Nat.sqrt v.toNat < 256 := Nat.sqrt_lt.mpr (by have := v.isLt; omega)
  omega

/-- A latency lies in 1..32. -/
theorem Latency.edges_bounds (l : Latency) : 1 ≤ l.edges ∧ l.edges ≤ 32 := by
  have := l.lessOne.isLt
  unfold Latency.edges
  omega

/-- Acceptance loads the latency less one, whole. -/
theorem countLoad_toNat (c : Config) (op : OpCode) : (countLoad c op).toNat = (latencyOf c op).edges - 1 := by
  have := Latency.edges_bounds (latencyOf c op)
  simp only [countLoad, BitVec.toNat_ofNat]
  exact Nat.mod_eq_of_lt (by omega)

/-- A 3-bit op code is one of eight. -/
theorem opCode_cases (op : OpCode) : op = 0 ∨ op = 1 ∨ op = 2 ∨ op = 3 ∨ op = 4 ∨ op = 5 ∨ op = 6 ∨ op = 7 := by
  revert op
  decide

theorem op_decodeFields (op : OpCode) (a b : Word) : (decodeFields op a b).op = op := by
  rcases opCode_cases op with h | h | h | h | h | h | h | h <;> subst h <;> rfl

theorem a_decodeFields (op : OpCode) (a b : Word) : (decodeFields op a b).a = a := by
  rcases opCode_cases op with h | h | h | h | h | h | h | h <;> subst h <;> rfl

theorem b_decodeFields (op : OpCode) (a b : Word) : (decodeFields op a b).b = b := by
  rcases opCode_cases op with h | h | h | h | h | h | h | h <;> subst h <;> rfl

theorem decodeFields_fields (i : Instr) : decodeFields i.op i.a i.b = i := by
  cases i <;> simp [Instr.op, Instr.a, Instr.b, decodeFields]

/-- Every meaning is one completion: its datapath's last step, and the triple of its result function. -/
theorem exec_eq (i : Instr) (s : State) :
    exec i s = .next ((s.stepDatapath i).complete (resultOf s.config s.rom i)) := by
  cases i <;> rfl

/-- The inverted branch, on the integers that the operands stand for (41_atan2.md R121). -/
theorem inverted_iff (a b : Word) : inverted a b = true ↔ b.toInt.natAbs < a.toInt.natAbs := decide_eq_true_iff

/-- The overflow flag, as a bound on the exact sum (43_magnitude.md R164). -/
theorem magOverflow_iff (sum : Nat) : magOverflow sum = true ↔ 65536 ≤ sum := decide_eq_true_iff

/-- A trial of the square root keeps the accumulator or sets one bit, and never lets the square pass the radicand. -/
theorem rootTrial_cases (v : Word) (p : Nat) (acc : BitVec 15) :
    (rootTrial v p acc = acc ∧ v.toNat < (acc ||| 1#15 <<< p).toNat * (acc ||| 1#15 <<< p).toNat) ∨
      (rootTrial v p acc = acc ||| 1#15 <<< p ∧ (rootTrial v p acc).toNat * (rootTrial v p acc).toNat ≤ v.toNat) := by
  unfold rootTrial
  simp only [BitVec.ofNat_eq_ofNat]
  split
  · next h => exact .inr ⟨rfl, h⟩
  · next h => exact .inl ⟨rfl, by omega⟩

/-- An iteration of the divider changes `R` and `Q` only. -/
theorem dividerIterate_frame (j : Nat) (w : Divider) :
    (dividerIterate j w).xn = w.xn ∧ (dividerIterate j w).yn = w.yn ∧ (dividerIterate j w).inv = w.inv ∧
      (dividerIterate j w).z = w.z ∧ (dividerIterate j w).d = w.d ∧ (dividerIterate j w).t = w.t := by
  dsimp only [dividerIterate]
  split <;> simp

end Sys2Proof.Machine
end

