-- ==== Sys2Proof/Laws/Decode.lean ====
section
/-! SUPPORT. The bits of a command word {OP, A, B} (30_encoding.md R60), said once, and what the assembler refuses (R69). -/

namespace Sys2Proof

/-- Bit `k` of {OP, A, B}: B below 16, A below 32, OP above. -/
theorem command_getLsbD (op : OpCode) (a b : Word) (k : Nat) :
    BitVec.getLsbD (op ++ a ++ b : Command) k =
      if k < 16 then b.getLsbD k else if k < 32 then a.getLsbD (k - 16) else op.getLsbD (k - 32) := by
  have whole := BitVec.getLsbD_append (x := op ++ a) (y := b) (i := k)
  have upper := BitVec.getLsbD_append (x := op) (y := a) (i := k - 16)
  refine whole.trans ?_
  by_cases hb : k < 16
  · simp [hb]
  · rw [if_neg hb]
    simp only [hb]
    refine upper.trans ?_
    by_cases ha : k < 32
    · simp [ha, show k - 16 < 16 by omega]
    · simp [ha, show ¬ k - 16 < 16 by omega, Nat.sub_sub]

/-- The assembler refuses exactly the ill-formed lines (30_encoding.md R69). -/
theorem TraceLine.assemble_eq_none (t : TraceLine) : t.assemble = none ↔ t.wellFormed = false := by
  unfold TraceLine.assemble
  split <;> simp_all

end Sys2Proof
end

