-- ==== Sys2Proof/Laws/State.lean ====
section
/-! SUPPORT. One lemma per field per update of State: later proofs use these and do not unfold a record update. -/

namespace Sys2Proof.Machine

/-! ### `State.tick` -/

@[simp] theorem State.tick_config (s : State) : (s.tick).config = s.config := rfl
@[simp] theorem State.tick_rom (s : State) : (s.tick).rom = s.rom := rfl
@[simp] theorem State.tick_busy (s : State) : (s.tick).busy = s.busy := rfl
@[simp] theorem State.tick_cnt (s : State) : (s.tick).cnt = s.cnt := rfl
@[simp] theorem State.tick_opR (s : State) : (s.tick).opR = s.opR := rfl
@[simp] theorem State.tick_aR (s : State) : (s.tick).aR = s.aR := rfl
@[simp] theorem State.tick_bR (s : State) : (s.tick).bR = s.bR := rfl
@[simp] theorem State.tick_resultR (s : State) : (s.tick).resultR = s.resultR := rfl
@[simp] theorem State.tick_ovfR (s : State) : (s.tick).ovfR = s.ovfR := rfl
@[simp] theorem State.tick_errR (s : State) : (s.tick).errR = s.errR := rfl
@[simp] theorem State.tick_doneR (s : State) : (s.tick).doneR = s.doneR := rfl
@[simp] theorem State.tick_divider (s : State) : (s.tick).divider = s.divider := rfl
@[simp] theorem State.tick_rooter (s : State) : (s.tick).rooter = s.rooter := rfl
@[simp] theorem State.tick_booted (s : State) : (s.tick).booted = s.booted := rfl
@[simp] theorem State.tick_draws (s : State) : (s.tick).draws = s.draws := rfl
@[simp] theorem State.tick_host (s : State) : (s.tick).host = s.host.tail := rfl

/-! ### `State.complete` -/

@[simp] theorem State.complete_config (s : State) (c : Completion) : (s.complete c).config = s.config := rfl
@[simp] theorem State.complete_rom (s : State) (c : Completion) : (s.complete c).rom = s.rom := rfl
@[simp] theorem State.complete_busy (s : State) (c : Completion) : (s.complete c).busy = false := rfl
@[simp] theorem State.complete_cnt (s : State) (c : Completion) : (s.complete c).cnt = s.cnt := rfl
@[simp] theorem State.complete_opR (s : State) (c : Completion) : (s.complete c).opR = s.opR := rfl
@[simp] theorem State.complete_aR (s : State) (c : Completion) : (s.complete c).aR = s.aR := rfl
@[simp] theorem State.complete_bR (s : State) (c : Completion) : (s.complete c).bR = s.bR := rfl
@[simp] theorem State.complete_resultR (s : State) (c : Completion) : (s.complete c).resultR = c.result := rfl
@[simp] theorem State.complete_ovfR (s : State) (c : Completion) : (s.complete c).ovfR = c.ovf := rfl
@[simp] theorem State.complete_errR (s : State) (c : Completion) : (s.complete c).errR = c.err := rfl
@[simp] theorem State.complete_doneR (s : State) (c : Completion) : (s.complete c).doneR = true := rfl
@[simp] theorem State.complete_divider (s : State) (c : Completion) : (s.complete c).divider = s.divider := rfl
@[simp] theorem State.complete_rooter (s : State) (c : Completion) : (s.complete c).rooter = s.rooter := rfl
@[simp] theorem State.complete_booted (s : State) (c : Completion) : (s.complete c).booted = s.booted := rfl
@[simp] theorem State.complete_draws (s : State) (c : Completion) : (s.complete c).draws = s.draws := rfl
@[simp] theorem State.complete_host (s : State) (c : Completion) : (s.complete c).host = s.host := rfl

/-! ### `State.drawHidden` -/

@[simp] theorem State.drawHidden_config (s : State) : (s.drawHidden).config = s.config := rfl
@[simp] theorem State.drawHidden_rom (s : State) : (s.drawHidden).rom = s.rom := rfl
@[simp] theorem State.drawHidden_busy (s : State) : (s.drawHidden).busy = s.busy := rfl
@[simp] theorem State.drawHidden_cnt (s : State) : (s.drawHidden).cnt = Config.freeBits 5 s.draws := rfl
@[simp] theorem State.drawHidden_opR (s : State) : (s.drawHidden).opR = Config.freeBits 3 (s.draws + 1) := rfl
@[simp] theorem State.drawHidden_aR (s : State) : (s.drawHidden).aR = Config.freeBits 16 (s.draws + 2) := rfl
@[simp] theorem State.drawHidden_bR (s : State) : (s.drawHidden).bR = Config.freeBits 16 (s.draws + 3) := rfl
@[simp] theorem State.drawHidden_resultR (s : State) : (s.drawHidden).resultR = s.resultR := rfl
@[simp] theorem State.drawHidden_ovfR (s : State) : (s.drawHidden).ovfR = s.ovfR := rfl
@[simp] theorem State.drawHidden_errR (s : State) : (s.drawHidden).errR = s.errR := rfl
@[simp] theorem State.drawHidden_doneR (s : State) : (s.drawHidden).doneR = s.doneR := rfl
@[simp] theorem State.drawHidden_divider (s : State) : (s.drawHidden).divider = drawDivider (s.draws + 4) := rfl
@[simp] theorem State.drawHidden_rooter (s : State) : (s.drawHidden).rooter = drawRooter (s.draws + 12) := rfl
@[simp] theorem State.drawHidden_booted (s : State) : (s.drawHidden).booted = s.booted := rfl
@[simp] theorem State.drawHidden_draws (s : State) : (s.drawHidden).draws = s.draws + drawsPerReset := rfl
@[simp] theorem State.drawHidden_host (s : State) : (s.drawHidden).host = s.host := rfl

/-! ### `State.drawAll` -/

@[simp] theorem State.drawAll_config (s : State) : (s.drawAll).config = s.config := rfl
@[simp] theorem State.drawAll_rom (s : State) : (s.drawAll).rom = s.rom := rfl
@[simp] theorem State.drawAll_busy (s : State) : (s.drawAll).busy = Config.freeBit (s.draws + drawsPerReset) := rfl
@[simp] theorem State.drawAll_cnt (s : State) : (s.drawAll).cnt = Config.freeBits 5 s.draws := rfl
@[simp] theorem State.drawAll_opR (s : State) : (s.drawAll).opR = Config.freeBits 3 (s.draws + 1) := rfl
@[simp] theorem State.drawAll_aR (s : State) : (s.drawAll).aR = Config.freeBits 16 (s.draws + 2) := rfl
@[simp] theorem State.drawAll_bR (s : State) : (s.drawAll).bR = Config.freeBits 16 (s.draws + 3) := rfl
@[simp] theorem State.drawAll_resultR (s : State) : (s.drawAll).resultR = Config.freeBits 16 (s.draws + drawsPerReset + 1) := rfl
@[simp] theorem State.drawAll_ovfR (s : State) : (s.drawAll).ovfR = Config.freeBit (s.draws + drawsPerReset + 2) := rfl
@[simp] theorem State.drawAll_errR (s : State) : (s.drawAll).errR = Config.freeBit (s.draws + drawsPerReset + 3) := rfl
@[simp] theorem State.drawAll_doneR (s : State) : (s.drawAll).doneR = Config.freeBit (s.draws + drawsPerReset + 4) := rfl
@[simp] theorem State.drawAll_divider (s : State) : (s.drawAll).divider = drawDivider (s.draws + 4) := rfl
@[simp] theorem State.drawAll_rooter (s : State) : (s.drawAll).rooter = drawRooter (s.draws + 12) := rfl
@[simp] theorem State.drawAll_booted (s : State) : (s.drawAll).booted = s.booted := rfl
@[simp] theorem State.drawAll_draws (s : State) : (s.drawAll).draws = s.draws + drawsPerReset + 5 := rfl
@[simp] theorem State.drawAll_host (s : State) : (s.drawAll).host = s.host := rfl

/-! ### `State.unresetEdge`, `State.powerUp` and `State.completed` -/

@[simp] theorem State.unresetEdge_eq_drawAll (s : State) : s.unresetEdge = s.drawAll := rfl
@[simp] theorem State.powerUp_config (c : Config) (k : Nat) (host : List HostCycle) : (State.powerUp c k host).config = c := rfl
@[simp] theorem State.powerUp_rom (c : Config) (k : Nat) (host : List HostCycle) : (State.powerUp c k host).rom = sineTable := rfl
@[simp] theorem State.powerUp_booted (c : Config) (k : Nat) (host : List HostCycle) : (State.powerUp c k host).booted = false := rfl
@[simp] theorem State.powerUp_host (c : Config) (k : Nat) (host : List HostCycle) : (State.powerUp c k host).host = host := rfl

@[simp] theorem State.resetEdge_completed (s : State) : s.resetEdge.completed = false := rfl
@[simp] theorem State.acceptEdge_completed (s : State) (c : HostCycle) : (s.acceptEdge c).completed = false := Bool.and_false _
@[simp] theorem State.idleEdge_completed (s : State) : s.idleEdge.completed = false := Bool.and_false _
@[simp] theorem State.countdownEdge_completed (s : State) : s.countdownEdge.completed = false := Bool.and_false _
@[simp] theorem State.complete_completed (s : State) (c : Completion) : (s.complete c).completed = s.booted := Bool.and_true _

theorem State.completed_of_booted {s : State} (h : s.booted = true) : s.completed = s.doneR := by simp [State.completed, h]
theorem State.completed_of_unbooted {s : State} (h : s.booted = false) : s.completed = false := by simp [State.completed, h]

/-! ### `State.resetEdge` -/

@[simp] theorem State.resetEdge_config (s : State) : (s.resetEdge).config = s.config := rfl
@[simp] theorem State.resetEdge_rom (s : State) : (s.resetEdge).rom = s.rom := rfl
@[simp] theorem State.resetEdge_busy (s : State) : (s.resetEdge).busy = false := rfl
@[simp] theorem State.resetEdge_cnt (s : State) : (s.resetEdge).cnt = Config.freeBits 5 s.draws := rfl
@[simp] theorem State.resetEdge_opR (s : State) : (s.resetEdge).opR = Config.freeBits 3 (s.draws + 1) := rfl
@[simp] theorem State.resetEdge_aR (s : State) : (s.resetEdge).aR = Config.freeBits 16 (s.draws + 2) := rfl
@[simp] theorem State.resetEdge_bR (s : State) : (s.resetEdge).bR = Config.freeBits 16 (s.draws + 3) := rfl
@[simp] theorem State.resetEdge_resultR (s : State) : (s.resetEdge).resultR = 0 := rfl
@[simp] theorem State.resetEdge_ovfR (s : State) : (s.resetEdge).ovfR = false := rfl
@[simp] theorem State.resetEdge_errR (s : State) : (s.resetEdge).errR = false := rfl
@[simp] theorem State.resetEdge_doneR (s : State) : (s.resetEdge).doneR = false := rfl
@[simp] theorem State.resetEdge_divider (s : State) : (s.resetEdge).divider = drawDivider (s.draws + 4) := rfl
@[simp] theorem State.resetEdge_rooter (s : State) : (s.resetEdge).rooter = drawRooter (s.draws + 12) := rfl
@[simp] theorem State.resetEdge_booted (s : State) : (s.resetEdge).booted = true := rfl
@[simp] theorem State.resetEdge_draws (s : State) : (s.resetEdge).draws = s.draws + drawsPerReset := rfl
@[simp] theorem State.resetEdge_host (s : State) : (s.resetEdge).host = s.host := rfl

/-! ### `State.acceptEdge` -/

@[simp] theorem State.acceptEdge_config (s : State) (c : HostCycle) : (s.acceptEdge c).config = s.config := rfl
@[simp] theorem State.acceptEdge_rom (s : State) (c : HostCycle) : (s.acceptEdge c).rom = s.rom := rfl
@[simp] theorem State.acceptEdge_busy (s : State) (c : HostCycle) : (s.acceptEdge c).busy = true := rfl
@[simp] theorem State.acceptEdge_cnt (s : State) (c : HostCycle) : (s.acceptEdge c).cnt = countLoad s.config c.cmdOp := rfl
@[simp] theorem State.acceptEdge_opR (s : State) (c : HostCycle) : (s.acceptEdge c).opR = c.cmdOp := rfl
@[simp] theorem State.acceptEdge_aR (s : State) (c : HostCycle) : (s.acceptEdge c).aR = c.cmdA := rfl
@[simp] theorem State.acceptEdge_bR (s : State) (c : HostCycle) : (s.acceptEdge c).bR = c.cmdB := rfl
@[simp] theorem State.acceptEdge_resultR (s : State) (c : HostCycle) : (s.acceptEdge c).resultR = s.resultR := rfl
@[simp] theorem State.acceptEdge_ovfR (s : State) (c : HostCycle) : (s.acceptEdge c).ovfR = s.ovfR := rfl
@[simp] theorem State.acceptEdge_errR (s : State) (c : HostCycle) : (s.acceptEdge c).errR = s.errR := rfl
@[simp] theorem State.acceptEdge_doneR (s : State) (c : HostCycle) : (s.acceptEdge c).doneR = false := rfl
@[simp] theorem State.acceptEdge_divider (s : State) (c : HostCycle) : (s.acceptEdge c).divider = s.divider := rfl
@[simp] theorem State.acceptEdge_rooter (s : State) (c : HostCycle) : (s.acceptEdge c).rooter = acceptRooter c.cmdOp s.rooter := rfl
@[simp] theorem State.acceptEdge_booted (s : State) (c : HostCycle) : (s.acceptEdge c).booted = s.booted := rfl
@[simp] theorem State.acceptEdge_draws (s : State) (c : HostCycle) : (s.acceptEdge c).draws = s.draws := rfl
@[simp] theorem State.acceptEdge_host (s : State) (c : HostCycle) : (s.acceptEdge c).host = s.host := rfl

/-! ### `State.idleEdge` -/

@[simp] theorem State.idleEdge_config (s : State) : (s.idleEdge).config = s.config := rfl
@[simp] theorem State.idleEdge_rom (s : State) : (s.idleEdge).rom = s.rom := rfl
@[simp] theorem State.idleEdge_busy (s : State) : (s.idleEdge).busy = s.busy := rfl
@[simp] theorem State.idleEdge_cnt (s : State) : (s.idleEdge).cnt = s.cnt := rfl
@[simp] theorem State.idleEdge_opR (s : State) : (s.idleEdge).opR = s.opR := rfl
@[simp] theorem State.idleEdge_aR (s : State) : (s.idleEdge).aR = s.aR := rfl
@[simp] theorem State.idleEdge_bR (s : State) : (s.idleEdge).bR = s.bR := rfl
@[simp] theorem State.idleEdge_resultR (s : State) : (s.idleEdge).resultR = s.resultR := rfl
@[simp] theorem State.idleEdge_ovfR (s : State) : (s.idleEdge).ovfR = s.ovfR := rfl
@[simp] theorem State.idleEdge_errR (s : State) : (s.idleEdge).errR = s.errR := rfl
@[simp] theorem State.idleEdge_doneR (s : State) : (s.idleEdge).doneR = false := rfl
@[simp] theorem State.idleEdge_divider (s : State) : (s.idleEdge).divider = s.divider := rfl
@[simp] theorem State.idleEdge_rooter (s : State) : (s.idleEdge).rooter = s.rooter := rfl
@[simp] theorem State.idleEdge_booted (s : State) : (s.idleEdge).booted = s.booted := rfl
@[simp] theorem State.idleEdge_draws (s : State) : (s.idleEdge).draws = s.draws := rfl
@[simp] theorem State.idleEdge_host (s : State) : (s.idleEdge).host = s.host := rfl

/-! ### `State.inFlight` -/

@[simp] theorem State.inFlight_config (s : State) (c : Command) : (s.inFlight c).config = s.config := rfl
@[simp] theorem State.inFlight_rom (s : State) (c : Command) : (s.inFlight c).rom = s.rom := rfl
@[simp] theorem State.inFlight_busy (s : State) (c : Command) : (s.inFlight c).busy = true := rfl
@[simp] theorem State.inFlight_cnt (s : State) (c : Command) : (s.inFlight c).cnt = 0 := rfl
@[simp] theorem State.inFlight_opR (s : State) (c : Command) : (s.inFlight c).opR = c.op := rfl
@[simp] theorem State.inFlight_aR (s : State) (c : Command) : (s.inFlight c).aR = c.a := rfl
@[simp] theorem State.inFlight_bR (s : State) (c : Command) : (s.inFlight c).bR = c.b := rfl
@[simp] theorem State.inFlight_resultR (s : State) (c : Command) : (s.inFlight c).resultR = s.resultR := rfl
@[simp] theorem State.inFlight_ovfR (s : State) (c : Command) : (s.inFlight c).ovfR = s.ovfR := rfl
@[simp] theorem State.inFlight_errR (s : State) (c : Command) : (s.inFlight c).errR = s.errR := rfl
@[simp] theorem State.inFlight_doneR (s : State) (c : Command) : (s.inFlight c).doneR = s.doneR := rfl
@[simp] theorem State.inFlight_divider (s : State) (c : Command) : (s.inFlight c).divider = s.divider := rfl
@[simp] theorem State.inFlight_rooter (s : State) (c : Command) : (s.inFlight c).rooter = s.rooter := rfl
@[simp] theorem State.inFlight_booted (s : State) (c : Command) : (s.inFlight c).booted = true := rfl
@[simp] theorem State.inFlight_draws (s : State) (c : Command) : (s.inFlight c).draws = s.draws := rfl
@[simp] theorem State.inFlight_host (s : State) (c : Command) : (s.inFlight c).host = s.host := rfl

/-! ### `State.stepDivider` -/

@[simp] theorem State.stepDivider_config (s : State) (a b : Word) : (s.stepDivider a b).config = s.config := rfl
@[simp] theorem State.stepDivider_rom (s : State) (a b : Word) : (s.stepDivider a b).rom = s.rom := rfl
@[simp] theorem State.stepDivider_busy (s : State) (a b : Word) : (s.stepDivider a b).busy = s.busy := rfl
@[simp] theorem State.stepDivider_cnt (s : State) (a b : Word) : (s.stepDivider a b).cnt = s.cnt := rfl
@[simp] theorem State.stepDivider_opR (s : State) (a b : Word) : (s.stepDivider a b).opR = s.opR := rfl
@[simp] theorem State.stepDivider_aR (s : State) (a b : Word) : (s.stepDivider a b).aR = s.aR := rfl
@[simp] theorem State.stepDivider_bR (s : State) (a b : Word) : (s.stepDivider a b).bR = s.bR := rfl
@[simp] theorem State.stepDivider_resultR (s : State) (a b : Word) : (s.stepDivider a b).resultR = s.resultR := rfl
@[simp] theorem State.stepDivider_ovfR (s : State) (a b : Word) : (s.stepDivider a b).ovfR = s.ovfR := rfl
@[simp] theorem State.stepDivider_errR (s : State) (a b : Word) : (s.stepDivider a b).errR = s.errR := rfl
@[simp] theorem State.stepDivider_doneR (s : State) (a b : Word) : (s.stepDivider a b).doneR = s.doneR := rfl
@[simp] theorem State.stepDivider_rooter (s : State) (a b : Word) : (s.stepDivider a b).rooter = s.rooter := rfl
@[simp] theorem State.stepDivider_booted (s : State) (a b : Word) : (s.stepDivider a b).booted = s.booted := rfl
@[simp] theorem State.stepDivider_host (s : State) (a b : Word) : (s.stepDivider a b).host = s.host := rfl

/-! ### `State.stepIsqrt` -/

@[simp] theorem State.stepIsqrt_config (s : State) (a : Word) : (s.stepIsqrt a).config = s.config := rfl
@[simp] theorem State.stepIsqrt_rom (s : State) (a : Word) : (s.stepIsqrt a).rom = s.rom := rfl
@[simp] theorem State.stepIsqrt_busy (s : State) (a : Word) : (s.stepIsqrt a).busy = s.busy := rfl
@[simp] theorem State.stepIsqrt_cnt (s : State) (a : Word) : (s.stepIsqrt a).cnt = s.cnt := rfl
@[simp] theorem State.stepIsqrt_opR (s : State) (a : Word) : (s.stepIsqrt a).opR = s.opR := rfl
@[simp] theorem State.stepIsqrt_aR (s : State) (a : Word) : (s.stepIsqrt a).aR = s.aR := rfl
@[simp] theorem State.stepIsqrt_bR (s : State) (a : Word) : (s.stepIsqrt a).bR = s.bR := rfl
@[simp] theorem State.stepIsqrt_resultR (s : State) (a : Word) : (s.stepIsqrt a).resultR = s.resultR := rfl
@[simp] theorem State.stepIsqrt_ovfR (s : State) (a : Word) : (s.stepIsqrt a).ovfR = s.ovfR := rfl
@[simp] theorem State.stepIsqrt_errR (s : State) (a : Word) : (s.stepIsqrt a).errR = s.errR := rfl
@[simp] theorem State.stepIsqrt_doneR (s : State) (a : Word) : (s.stepIsqrt a).doneR = s.doneR := rfl
@[simp] theorem State.stepIsqrt_divider (s : State) (a : Word) : (s.stepIsqrt a).divider = s.divider := rfl
@[simp] theorem State.stepIsqrt_booted (s : State) (a : Word) : (s.stepIsqrt a).booted = s.booted := rfl
@[simp] theorem State.stepIsqrt_host (s : State) (a : Word) : (s.stepIsqrt a).host = s.host := rfl

/-! ### `State.stepMag` -/

@[simp] theorem State.stepMag_config (s : State) (a b : Word) : (s.stepMag a b).config = s.config := rfl
@[simp] theorem State.stepMag_rom (s : State) (a b : Word) : (s.stepMag a b).rom = s.rom := rfl
@[simp] theorem State.stepMag_busy (s : State) (a b : Word) : (s.stepMag a b).busy = s.busy := rfl
@[simp] theorem State.stepMag_cnt (s : State) (a b : Word) : (s.stepMag a b).cnt = s.cnt := rfl
@[simp] theorem State.stepMag_opR (s : State) (a b : Word) : (s.stepMag a b).opR = s.opR := rfl
@[simp] theorem State.stepMag_aR (s : State) (a b : Word) : (s.stepMag a b).aR = s.aR := rfl
@[simp] theorem State.stepMag_bR (s : State) (a b : Word) : (s.stepMag a b).bR = s.bR := rfl
@[simp] theorem State.stepMag_resultR (s : State) (a b : Word) : (s.stepMag a b).resultR = s.resultR := rfl
@[simp] theorem State.stepMag_ovfR (s : State) (a b : Word) : (s.stepMag a b).ovfR = s.ovfR := rfl
@[simp] theorem State.stepMag_errR (s : State) (a b : Word) : (s.stepMag a b).errR = s.errR := rfl
@[simp] theorem State.stepMag_doneR (s : State) (a b : Word) : (s.stepMag a b).doneR = s.doneR := rfl
@[simp] theorem State.stepMag_divider (s : State) (a b : Word) : (s.stepMag a b).divider = s.divider := rfl
@[simp] theorem State.stepMag_booted (s : State) (a b : Word) : (s.stepMag a b).booted = s.booted := rfl
@[simp] theorem State.stepMag_host (s : State) (a b : Word) : (s.stepMag a b).host = s.host := rfl

/-! ### `State.stepDatapath` -/

@[simp] theorem State.stepDatapath_config (s : State) (i : Instr) : (s.stepDatapath i).config = s.config := by cases i <;> rfl
@[simp] theorem State.stepDatapath_rom (s : State) (i : Instr) : (s.stepDatapath i).rom = s.rom := by cases i <;> rfl
@[simp] theorem State.stepDatapath_busy (s : State) (i : Instr) : (s.stepDatapath i).busy = s.busy := by cases i <;> rfl
@[simp] theorem State.stepDatapath_cnt (s : State) (i : Instr) : (s.stepDatapath i).cnt = s.cnt := by cases i <;> rfl
@[simp] theorem State.stepDatapath_opR (s : State) (i : Instr) : (s.stepDatapath i).opR = s.opR := by cases i <;> rfl
@[simp] theorem State.stepDatapath_aR (s : State) (i : Instr) : (s.stepDatapath i).aR = s.aR := by cases i <;> rfl
@[simp] theorem State.stepDatapath_bR (s : State) (i : Instr) : (s.stepDatapath i).bR = s.bR := by cases i <;> rfl
@[simp] theorem State.stepDatapath_resultR (s : State) (i : Instr) : (s.stepDatapath i).resultR = s.resultR := by cases i <;> rfl
@[simp] theorem State.stepDatapath_ovfR (s : State) (i : Instr) : (s.stepDatapath i).ovfR = s.ovfR := by cases i <;> rfl
@[simp] theorem State.stepDatapath_errR (s : State) (i : Instr) : (s.stepDatapath i).errR = s.errR := by cases i <;> rfl
@[simp] theorem State.stepDatapath_doneR (s : State) (i : Instr) : (s.stepDatapath i).doneR = s.doneR := by cases i <;> rfl
@[simp] theorem State.stepDatapath_booted (s : State) (i : Instr) : (s.stepDatapath i).booted = s.booted := by cases i <;> rfl
@[simp] theorem State.stepDatapath_host (s : State) (i : Instr) : (s.stepDatapath i).host = s.host := by cases i <;> rfl

/-! ### `State.countdownEdge` -/

@[simp] theorem State.countdownEdge_config (s : State) : (s.countdownEdge).config = s.config := by simp [State.countdownEdge]
@[simp] theorem State.countdownEdge_rom (s : State) : (s.countdownEdge).rom = s.rom := by simp [State.countdownEdge]
@[simp] theorem State.countdownEdge_busy (s : State) : (s.countdownEdge).busy = s.busy := by simp [State.countdownEdge]
@[simp] theorem State.countdownEdge_cnt (s : State) : (s.countdownEdge).cnt = s.cnt - 1 := by simp [State.countdownEdge]
@[simp] theorem State.countdownEdge_opR (s : State) : (s.countdownEdge).opR = s.opR := by simp [State.countdownEdge]
@[simp] theorem State.countdownEdge_aR (s : State) : (s.countdownEdge).aR = s.aR := by simp [State.countdownEdge]
@[simp] theorem State.countdownEdge_bR (s : State) : (s.countdownEdge).bR = s.bR := by simp [State.countdownEdge]
@[simp] theorem State.countdownEdge_resultR (s : State) : (s.countdownEdge).resultR = s.resultR := by simp [State.countdownEdge]
@[simp] theorem State.countdownEdge_ovfR (s : State) : (s.countdownEdge).ovfR = s.ovfR := by simp [State.countdownEdge]
@[simp] theorem State.countdownEdge_errR (s : State) : (s.countdownEdge).errR = s.errR := by simp [State.countdownEdge]
@[simp] theorem State.countdownEdge_doneR (s : State) : (s.countdownEdge).doneR = false := by simp [State.countdownEdge]
@[simp] theorem State.countdownEdge_divider (s : State) : (s.countdownEdge).divider = (s.stepDatapath s.latched).divider := by simp [State.countdownEdge]
@[simp] theorem State.countdownEdge_rooter (s : State) : (s.countdownEdge).rooter = (s.stepDatapath s.latched).rooter := by simp [State.countdownEdge]
@[simp] theorem State.countdownEdge_booted (s : State) : (s.countdownEdge).booted = s.booted := by simp [State.countdownEdge]
@[simp] theorem State.countdownEdge_draws (s : State) : (s.countdownEdge).draws = (s.stepDatapath s.latched).draws := by simp [State.countdownEdge]
@[simp] theorem State.countdownEdge_host (s : State) : (s.countdownEdge).host = s.host := by simp [State.countdownEdge]

/-! ### What is read through an update -/

@[simp] theorem State.tick_latched (s : State) : s.tick.latched = s.latched := rfl
@[simp] theorem State.tick_shown (s : State) : (⟨s.tick.resultR, s.tick.ovfR, s.tick.errR⟩ : Completion) = ⟨s.resultR, s.ovfR, s.errR⟩ := rfl
@[simp] theorem State.input_cons (s : State) (c : HostCycle) (rest : List HostCycle) :
    State.input { s with host := c :: rest } = c := rfl

end Sys2Proof.Machine
end

