-- ==== Sys2Proof/Laws/Step.lean ====
section
/-! SUPPORT. What one edge can do, said once. Proofs about runs and invariants cite these and do not unfold `step`. -/

namespace Sys2Proof.Machine

theorem bootFault_of_booted (s : State) (h : s.booted = true) : s.bootFault = none := by
  simp [State.bootFault, h]

/-- A step that answers a next state is a reset edge, an edge without reset before the first one, or one of R226's other four edges. -/
theorem step_cases {s t : State} (h : step s = .next t) :
    s.bootFault = none ∧
      ((s.input.rst = true ∧ t = s.tick.resetEdge) ∨
       (s.booted = false ∧ s.input.rst = false ∧ t = s.tick.unresetEdge) ∨
       (s.booted = true ∧
        ((s.input.rst = false ∧ s.busy = false ∧ s.input.cmdValid = true ∧ t = s.tick.acceptEdge s.input) ∨
         (s.input.rst = false ∧ s.busy = false ∧ s.input.cmdValid = false ∧ t = s.tick.idleEdge) ∨
         (s.input.rst = false ∧ s.busy = true ∧ s.cnt ≠ 0 ∧ t = s.tick.countdownEdge) ∨
         (s.input.rst = false ∧ s.busy = true ∧ s.cnt = 0 ∧
           t = (s.tick.stepDatapath s.latched).complete (resultOf s.config s.rom s.latched))))) := by
  unfold step at h
  split at h
  · cases h
  · next hb =>
    refine ⟨hb, ?_⟩
    rw [exec_eq] at h
    split at h
    · next hr => cases h; exact .inl ⟨hr, rfl⟩
    next hr =>
    have hr' : s.input.rst = false := by simpa using hr
    split at h
    · next hu => cases h; exact .inr (.inl ⟨by simpa using hu, hr', rfl⟩)
    next hu =>
    refine .inr (.inr ⟨by simpa using hu, ?_⟩)
    split at h
    · next hc =>
      simp only [Bool.and_eq_true, Bool.not_eq_true'] at hc
      cases h
      exact .inl ⟨hr', hc.1, hc.2, rfl⟩
    next hc =>
    split at h
    · next hbusy =>
      simp only [Bool.not_eq_true'] at hbusy
      cases h
      exact .inr (.inl ⟨hr', hbusy, by simpa [hbusy] using hc, rfl⟩)
    next hbusy =>
    have hbusy' : s.busy = true := by simpa using hbusy
    split at h
    · next hcnt => cases h; exact .inr (.inr (.inl ⟨hr', hbusy', hcnt, rfl⟩))
    · next hcnt => cases h; exact .inr (.inr (.inr ⟨hr', hbusy', by simpa using hcnt, rfl⟩))

/-- The five edges of R226: what a step of a unit that has been reset can do. -/
theorem step_cases_of_booted {s t : State} (hb : s.booted = true) (h : step s = .next t) :
    (s.input.rst = true ∧ t = s.tick.resetEdge) ∨
    (s.input.rst = false ∧ s.busy = false ∧ s.input.cmdValid = true ∧ t = s.tick.acceptEdge s.input) ∨
    (s.input.rst = false ∧ s.busy = false ∧ s.input.cmdValid = false ∧ t = s.tick.idleEdge) ∨
    (s.input.rst = false ∧ s.busy = true ∧ s.cnt ≠ 0 ∧ t = s.tick.countdownEdge) ∨
    (s.input.rst = false ∧ s.busy = true ∧ s.cnt = 0 ∧
      t = (s.tick.stepDatapath s.latched).complete (resultOf s.config s.rom s.latched)) := by
  obtain ⟨-, hr | ⟨hu, -⟩ | ⟨-, hc⟩⟩ := step_cases h
  · exact .inl hr
  · rw [hb] at hu; cases hu
  · exact .inr hc

theorem step_reset (s : State) (hb : s.bootFault = none) (hr : s.input.rst = true) :
    step s = .next s.tick.resetEdge := by
  simp [step, hb, hr]

theorem step_unreset (s : State) (hb : s.bootFault = none) (hr : s.input.rst = false) (hu : s.booted = false) :
    step s = .next s.tick.unresetEdge := by
  simp [step, hb, hr, hu]

theorem step_accept (s : State) (hb : s.booted = true) (hr : s.input.rst = false) (hbusy : s.busy = false)
    (hv : s.input.cmdValid = true) : step s = .next (s.tick.acceptEdge s.input) := by
  simp [step, bootFault_of_booted s hb, hb, hr, hbusy, hv]

theorem step_idle (s : State) (hb : s.booted = true) (hr : s.input.rst = false) (hbusy : s.busy = false)
    (hv : s.input.cmdValid = false) : step s = .next s.tick.idleEdge := by
  simp [step, bootFault_of_booted s hb, hb, hr, hbusy, hv]

theorem step_countdown (s : State) (hb : s.booted = true) (hr : s.input.rst = false) (hbusy : s.busy = true)
    (hc : s.cnt ≠ 0) : step s = .next s.tick.countdownEdge := by
  have : ¬ s.cnt = 0#5 := hc
  simp [step, bootFault_of_booted s hb, hb, hr, hbusy, this]

theorem step_complete (s : State) (hb : s.booted = true) (hr : s.input.rst = false) (hbusy : s.busy = true)
    (hc : s.cnt = 0) : step s = exec s.latched s.tick := by
  have : s.cnt = 0#5 := hc
  simp [step, bootFault_of_booted s hb, hb, hr, hbusy, this]

/-- A step refuses nothing: every command has its meaning. -/
theorem step_ne_refused (s : State) (r : Refusal) : step s ≠ .refused r := by
  intro h
  unfold step at h
  rw [exec_eq] at h
  split at h
  · cases h
  · split at h <;> try cases h
    split at h <;> try cases h
    split at h <;> try cases h
    split at h <;> try cases h
    split at h <;> cases h

/-- A run of one edge more is the first edge and the rest of the run. -/
theorem runFor_succ {s t : State} (n : Nat) (h : step s = .next t) : runFor (n + 1) s = runFor n t := by
  simp only [runFor, h]

/-- What a run of one edge more shows is what the first edge shows and what the rest shows. -/
theorem observations_succ {s t : State} (n : Nat) (h : step s = .next t) :
    observations (n + 1) s = (if t.completed then [t.shown] else []) ++ observations n t := by
  simp only [observations, h]
  split <;> rfl

/-- A run of any machine of the host's interface, after a first step that answers a next state. -/
theorem run_of_next (M : Host.Core) (n : Nat) {s t : M.State} (h : M.step s = .next t) : M.run (n + 1) s = M.run n t := by
  rw [Host.Core.run.eq_2, h]

theorem run_of_fault (M : Host.Core) (n : Nat) {s : M.State} {f : M.Fault} (h : M.step s = .fault f) :
    M.run (n + 1) s = .fault f := by
  rw [Host.Core.run.eq_2, h]

theorem run_of_refused (M : Host.Core) (n : Nat) {s : M.State} {r : M.Refusal} (h : M.step s = .refused r) :
    M.run (n + 1) s = .refused r := by
  rw [Host.Core.run.eq_2, h]

/-- The model's run is the host interface's. -/
theorem core_run_eq_runFor (n : Nat) (s : State) : Host.Core.run core n s = runFor n s := by
  induction n generalizing s with
  | zero => rfl
  | succ n ih =>
    unfold runFor
    cases h : step s with
    | next t => exact (run_of_next core n h).trans (ih t)
    | fault f => exact run_of_fault core n h
    | refused r => exact run_of_refused core n h

/-- The cycle that the next edge samples is the host's first. -/
theorem input_eq_getD (s : State) : s.input = s.host.getD 0 HostCycle.idle := by
  unfold State.input
  cases s.host <;> rfl

/-- The cycle `k` after the clock has moved on was the cycle `k + 1` before. -/
theorem tick_host_getD (s : State) (k : Nat) :
    s.tick.host.getD k HostCycle.idle = s.host.getD (k + 1) HostCycle.idle := by
  rw [State.tick_host]
  cases s.host <;> simp

/-- A host that never drives `rst` resets the unit at no edge. -/
theorem noResetFor_of_all (s : State) (h : s.host.all (fun c => !c.rst) = true) (n : Nat) : s.noResetFor n := by
  intro k _
  rw [List.getD_eq_getElem?_getD]
  cases hg : s.host[k]? with
  | none => rfl
  | some c => simpa using List.all_eq_true.mp h c (List.mem_of_getElem? hg)

end Sys2Proof.Machine
end

