-- ==== Sys2Proof/Laws/HostProgram.lean ====
section
/-! SUPPORT. What a host with a trace can do in a cycle, said once, and that its session is a run of the unit on the cycles it drives. -/

namespace Sys2Proof.Machine

@[simp] theorem react_nil (done : Bool) (held : Option Instr) : react done held [] = ⟨[], held, false, false, false⟩ := by
  cases held <;> rfl

@[simp] theorem react_issue_free (done : Bool) (i : Instr) (rest : List HostAction) :
    react done none (.issue i :: rest) = react done (some i) rest := rfl

@[simp] theorem react_issue_held (done : Bool) (j i : Instr) (rest : List HostAction) :
    react done (some j) (.issue i :: rest) = ⟨.issue i :: rest, some j, false, false, false⟩ := rfl

@[simp] theorem react_wait_quiet (held : Option Instr) (rest : List HostAction) :
    react false held (.wait :: rest) = ⟨.wait :: rest, held, false, true, false⟩ := by
  cases held <;> rfl

@[simp] theorem react_wait_pulse (held : Option Instr) (rest : List HostAction) :
    react true held (.wait :: rest) = { react false held rest with watches := true, samples := true } := by
  cases held <;> rfl

@[simp] theorem react_reset_now (done : Bool) (held : Option Instr) (rest : List HostAction) :
    react done held (.reset 0 :: rest) = ⟨rest, held, true, false, false⟩ := by
  cases held <;> rfl

@[simp] theorem react_reset_later (done : Bool) (held : Option Instr) (n : Nat) (rest : List HostAction) :
    react done held (.reset (n + 1) :: rest) = ⟨.reset n :: rest, held, false, false, false⟩ := by
  cases held <;> rfl

/-- An edge of the session is an edge of its unit and the host's turn. -/
theorem Session.edge_of_next {p : Session} {t : State} (h : step p.unit = .next t) : p.edge = .next (p.after t).turn := by
  simp only [Session.edge, h]

theorem Session.runFor_succ {p q : Session} (n : Nat) (h : p.edge = .next q) : p.runFor (n + 1) = q.runFor n := by
  simp only [Session.runFor, h]

theorem Session.cycles_succ {p q : Session} (n : Nat) (h : p.edge = .next q) : p.cycles (n + 1) = p.unit.input :: q.cycles n := by
  simp only [Session.cycles, h]

theorem Session.endWithin_of_ended {p : Session} (h : p.ended = true) (n : Nat) : p.endWithin n = some p := by
  cases n <;> simp [Session.endWithin, h]

theorem Session.endWithin_succ {p q : Session} (n : Nat) (h : p.ended = false) (he : p.edge = .next q) :
    p.endWithin (n + 1) = q.endWithin n := by
  simp [Session.endWithin, h, he]

/-- The state in which a run ends is ended, and `endWithin` finds no other. -/
theorem Session.ended_of_endWithin {p q : Session} {n : Nat} (h : p.endWithin n = some q) : q.ended = true := by
  induction n generalizing p with
  | zero =>
    unfold Session.endWithin at h
    split at h
    · next he => cases h; exact he
    · cases h
  | succ n ih =>
    unfold Session.endWithin at h
    split at h
    · next he => cases h; exact he
    · split at h
      · exact ih h
      · cases h
      · cases h

/-- A step reads of the host's cycles the first one only and hands the others on. -/
theorem step_host {s t : State} (cs : List HostCycle) (h : step s = .next t) :
    step { s with host := s.input :: cs } = .next { t with host := cs } := by
  obtain ⟨hb, hc⟩ := step_cases h
  have hb' : State.bootFault { s with host := s.input :: cs } = none := hb
  obtain ⟨hr, rfl⟩ | ⟨hu, hr, rfl⟩ | ⟨hbt, hc⟩ := hc
  · exact step_reset _ hb' hr
  · exact step_unreset _ hb' hr hu
  obtain ⟨hr, hbusy, hv, rfl⟩ | ⟨hr, hbusy, hv, rfl⟩ | ⟨hr, hbusy, hc, rfl⟩ | ⟨hr, hbusy, hc, rfl⟩ := hc
  · exact step_accept _ hbt hr hbusy hv
  · exact step_idle _ hbt hr hbusy hv
  · rw [step_countdown { s with host := s.input :: cs } hbt hr hbusy hc]
    unfold State.countdownEdge
    have : State.latched (State.tick { s with host := s.input :: cs }) = s.tick.latched := rfl
    rw [this]
    cases s.tick.latched <;> rfl
  · rw [step_complete { s with host := s.input :: cs } hbt hr hbusy hc, exec_eq]
    have : State.latched { s with host := s.input :: cs } = s.latched := rfl
    rw [this]
    cases s.latched <;> rfl

/-- A session is a run of its unit on the cycles that its host drives, and observes what that run shows. -/
theorem Session.runFor_unit {n : Nat} {p q : Session} (h : p.runFor n = .next q) :
    Machine.runFor n { p.unit with host := p.cycles n } = .next { q.unit with host := [] } ∧
      q.observed = p.observed ++ observations n { p.unit with host := p.cycles n } := by
  induction n generalizing p with
  | zero => cases h; exact ⟨rfl, by simp [observations]⟩
  | succ n ih =>
    cases hs : step p.unit with
    | next t =>
      have he := Session.edge_of_next hs
      rw [Session.runFor_succ n he] at h
      obtain ⟨h1, h2⟩ := ih h
      have hst := step_host ((p.after t).turn.cycles n) hs
      rw [Session.cycles_succ n he, Machine.runFor_succ n hst]
      refine ⟨h1, ?_⟩
      rw [h2, observations_succ n hst, ← List.append_assoc]
      congr 1
      show (if t.completed then p.observed ++ [t.shown] else p.observed) = p.observed ++ if t.completed then [t.shown] else []
      split <;> simp
    | fault f => simp [Session.runFor, Session.edge, hs] at h
    | refused r => simp [Session.runFor, Session.edge, hs] at h

end Sys2Proof.Machine
end

