-- ==== Sys2Proof/Laws/PerInstr.lean ====
section
/-! SUPPORT. What is said of every command as syntax, one lemma per constructor. -/

namespace Sys2Proof.Laws

/-- A command's word under the mask of its OP field is the OP field alone (30_encoding.md R65). -/
theorem encode_masked (i : Instr) : encode i &&& (0x700000000 : Command) = (i.op.setWidth 35 <<< 32 : Command) := by
  unfold encode
  generalize i.op = op
  ext k hk
  simp only [BitVec.getElem_and, BitVec.getElem_append, BitVec.getElem_shiftLeft, BitVec.getElem_setWidth]
  interval_cases k <;> simp

end Sys2Proof.Laws

namespace Sys2Proof.Laws.TableRow

/-- The command's word matches the row of the opcode table that has its mnemonic, and no other row. -/
def Statement (i : Instr) : Prop :=
  ∀ row ∈ opcodeTable, (encode i &&& row.mask = row.pattern ↔ row.mnemonic = i.mnemonic)

/-- Every row has the mask of the OP field, so the question is decided by the OP field alone. -/
theorem of_op {i : Instr}
    (h : ∀ row ∈ opcodeTable, row.mask = (0x700000000 : Command) ∧ ((i.op.setWidth 35 <<< 32 : Command) = row.pattern ↔ row.mnemonic = i.mnemonic)) :
    Statement i := by
  intro row hrow
  rw [(h row hrow).1, encode_masked]
  exact (h row hrow).2

theorem sin (a b : Word) : Statement (.sin a b) := of_op (by simp only [Instr.op, Instr.mnemonic]; decide)
theorem cos (a b : Word) : Statement (.cos a b) := of_op (by simp only [Instr.op, Instr.mnemonic]; decide)
theorem atan2 (a b : Word) : Statement (.atan2 a b) := of_op (by simp only [Instr.op, Instr.mnemonic]; decide)
theorem isqrt (a b : Word) : Statement (.isqrt a b) := of_op (by simp only [Instr.op, Instr.mnemonic]; decide)
theorem mag (a b : Word) : Statement (.mag a b) := of_op (by simp only [Instr.op, Instr.mnemonic]; decide)
theorem rsvd5 (a b : Word) : Statement (.rsvd5 a b) := of_op (by simp only [Instr.op, Instr.mnemonic]; decide)
theorem rsvd6 (a b : Word) : Statement (.rsvd6 a b) := of_op (by simp only [Instr.op, Instr.mnemonic]; decide)
theorem rsvd7 (a b : Word) : Statement (.rsvd7 a b) := of_op (by simp only [Instr.op, Instr.mnemonic]; decide)

end Sys2Proof.Laws.TableRow
end

