-- ==== Sys2Proof/Tests/Slice0.lean ====
section
/-! SUPPORT. Tests: what the assembler refuses, words written out from the encoding, single edges with the values of
spec/95_test_vectors.md, and for each statement with hypotheses a witness that meets them. -/

namespace Sys2Proof.Tests

open Sys2Proof.Machine Sys2Proof.Claims

/-! ## Well-formedness: each check refuses an ill-formed term (30_encoding.md R69, R64) -/

theorem test_angle_256_refused : (TraceLine.sin (.decimal 256)).wellFormed = false := by decide
theorem test_angle_negative_refused : (TraceLine.cos (.decimal (-1))).wellFormed = false := by decide
theorem test_angle_255_accepted : (TraceLine.cos (.decimal 255)).wellFormed = true := by decide
theorem test_signed_32768_refused : (TraceLine.atan2 (.decimal 32768) (.decimal 0)).wellFormed = false := by decide
theorem test_signed_second_operand_refused : (TraceLine.mag (.decimal 0) (.decimal (-32769))).wellFormed = false := by decide
theorem test_signed_wide_hex_refused : (TraceLine.mag (.hex 0x10000) (.hex 0)).wellFormed = false := by decide
theorem test_signed_hex_accepted : (TraceLine.atan2 (.hex 0xFF00) (.decimal (-32768))).wellFormed = true := by decide
theorem test_unsigned_65536_refused : (TraceLine.isqrt (.decimal 65536)).wellFormed = false := by decide
theorem test_reserved_4_refused : (TraceLine.rsvd (.decimal 4)).wellFormed = false := by decide
theorem test_reserved_8_refused : (TraceLine.rsvd (.decimal 8)).wellFormed = false := by decide
theorem test_sin_high_byte_ill_formed : (Instr.sin 0x0100 0).wellFormed = false := by decide
theorem test_cos_b_ill_formed : (Instr.cos 0 1).wellFormed = false := by decide
theorem test_isqrt_b_ill_formed : (Instr.isqrt 0 1).wellFormed = false := by decide
theorem test_rsvd5_a_ill_formed : (Instr.rsvd5 1 0).wellFormed = false := by decide
theorem test_rsvd6_b_ill_formed : (Instr.rsvd6 0 1).wellFormed = false := by decide
theorem test_rsvd7_a_ill_formed : (Instr.rsvd7 1 0).wellFormed = false := by decide

/-! ## Decoding: OP in bits 34:32, A in 31:16, B in 15:0 (30_encoding.md R60, R61), written out bit by bit -/

theorem test_decode_sin : decode 0b00000000000010000000000000000000000 = .sin 0x0040 0x0000 := by decide
theorem test_decode_cos : decode 0b00100000000110000000000000000000000 = .cos 0x00C0 0x0000 := by decide
theorem test_decode_atan2 : decode 0b01011111111000000000000000000000001 = .atan2 0xFF00 0x0001 := by decide
theorem test_decode_isqrt : decode 0b01111111111111111110000000000000000 = .isqrt 0xFFFF 0x0000 := by decide
theorem test_decode_mag : decode 0b10000000011000000000000010000000000 = .mag 0x0300 0x0400 := by decide
theorem test_decode_rsvd5 : decode 0b10100000000000000000000000000000000 = .rsvd5 0x0000 0x0000 := by decide
theorem test_decode_rsvd6 : decode 0b11000000000000000010000000000000010 = .rsvd6 0x0001 0x0002 := by decide
theorem test_decode_rsvd7 : decode 0b11110000000000000001000000000000000 = .rsvd7 0x8000 0x8000 := by decide
theorem test_decode_36_bits_rejected : decodeNumber 0x800000000 = .error .widerThanCommand := by decide
theorem test_table_word : decodeTableWord 40 0x40B510B51 = some (.mag 0x0B51 0x0B51) := by decide

/-- The rows of the table: each mask and match selects its own command (R65). -/
theorem test_table_rows :
    opcodeTable.all (fun r => (decode r.pattern).mnemonic == r.mnemonic && r.pattern &&& r.mask == r.pattern) = true := by
  decide

/-! ## Single edges (spec/95_test_vectors.md) -/

/-- A unit after reset whose host drives these cycles. -/
def driven (host : List HostCycle) : State := { State.reset with host := host }

/-- A cycle that presents a command. -/
def present (op : OpCode) (a b : Word) : HostCycle := ⟨false, true, op, a, b, false⟩

/-- A cycle with `rst = 1`. -/
def resetting : HostCycle := { HostCycle.idle with rst := true }

/-- A unit with this command in flight. -/
def flying (op : OpCode) (a b : Word) (cnt : BitVec 5) : State :=
  { State.reset with busy := true, cnt := cnt, opR := op, aR := a, bR := b }

/-- What an edge leaves in the visible registers: result, ovf, err, done, busy. -/
def edge (s : State) : Option (Word × Bool × Bool × Bool × Bool) :=
  match step s with
  | .next t => some (t.resultR, t.ovfR, t.errR, t.doneR, t.busy)
  | .fault _ => none
  | .refused _ => none

/-- `SIN 107`: 121, the first quadrant-1 angle of program 2. -/
theorem test_sin_mirrored : edge (flying 0 0x006B 0 0) = some (0x0079, false, false, true, false) := by decide
/-- R105's corner 192, with ignored bits set: -256. -/
theorem test_sin_negative : edge (flying 0 0xFFC0 7 0) = some (0xFF00, false, false, true, false) := by decide
/-- `COS 107`: -223 (program 2). -/
theorem test_cos_negative : edge (flying 1 0x006B 0 0) = some (0xFF21, false, false, true, false) := by decide
/-- R106's corner `COS 255`: 256, the wrap of the phase. -/
theorem test_cos_wraps : edge (flying 1 0x00FF 0 0) = some (0x0100, false, false, true, false) := by decide
/-- `ATAN2 100, -300`: 107 (program 2). -/
theorem test_atan2_second_quadrant : edge (flying 2 0x0064 0xFED4 0) = some (0x006B, false, false, true, false) := by decide
/-- The same under `ATAN_SHIFT = 3`: 118 (program 2). -/
theorem test_atan2_other_shift :
    edge { flying 2 0x0064 0xFED4 0 with config := { Config.reference with atanShift := .eighth } } =
      some (0x0076, false, false, true, false) := by decide
/-- R141's corner 65024, one below a square: 254. -/
theorem test_isqrt_below_square : edge (flying 3 0xFE00 0 0) = some (0x00FE, false, false, true, false) := by decide
/-- R141's corner 65025: 255. -/
theorem test_isqrt_square : edge (flying 3 0xFE01 0xFFFF 0) = some (0x00FF, false, false, true, false) := by decide
/-- `MAG 4095, 0`: 4080 without overflow (program 4). -/
theorem test_mag_largest : edge (flying 4 0x0FFF 0 0) = some (0x0FF0, false, false, true, false) := by decide
/-- `MAG -2896, 2896` under `MAG_SHIFT = 0`: 255, whatever the signs (R161, R166). -/
theorem test_mag_other_shift :
    edge { flying 4 0xF4B0 0x0B50 0 with config := { Config.reference with magShift := 0 } } =
      some (0x00FF, false, false, true, false) := by decide
theorem test_rsvd5_errs : edge (flying 5 0 0 0) = some (0x0000, false, true, true, false) := by decide
theorem test_rsvd6_errs : edge (flying 6 0xFFFF 0 0) = some (0x0000, false, true, true, false) := by decide
theorem test_rsvd7_errs : edge (flying 7 0 0xFFFF 0) = some (0x0000, false, true, true, false) := by decide

/-- Vector E1: a reset edge takes nothing, even with a command presented. -/
theorem test_edge_reset :
    edge { driven [{ present 0 32 0 with rst := true }] with resultR := 7, ovfR := true, doneR := true } =
      some (0, false, false, false, false) := by decide
/-- Vector E5: `MAG` is accepted with `cnt = 15`. -/
theorem test_edge_accept :
    (match step (driven [present 4 768 1024]) with
      | .next t => decide (t.cnt = 15 ∧ t.busy = true ∧ t.aR = 768 ∧ t.bR = 1024)
      | .fault _ => false
      | .refused _ => false) = true := by decide
/-- Vector E6: a countdown edge takes no command. -/
theorem test_edge_countdown :
    (match step { flying 4 768 1024 15 with host := [present 0 32 0] } with
      | .next t => decide (t.cnt = 14 ∧ t.busy = true ∧ t.opR = 4)
      | .fault _ => false
      | .refused _ => false) = true := by decide
/-- R37: a command before the first reset edge is the host's fault. -/
theorem test_boot_fault : step { driven [present 0 32 0] with booted := false } = .fault .commandBeforeReset := by rfl

/-! ## The host of a trace (30_encoding.md R69, 70_reset_and_hazards.md R231) -/

/-- A `WAIT` in a cycle without `done` stays where it is and samples nothing. -/
theorem test_wait_without_done : react false none [.wait] = ⟨[.wait], none, false, true, false⟩ := by decide

/-- R37: a `WAIT` at power-up is the host's fault, whatever was drawn for `done_r` (log 19). -/
theorem test_wait_before_reset_faults :
    (Session.start (State.powerUp Config.reference 7 []) [.wait]).edge = .fault .readBeforeReset := rfl
/-- Program 3, the cycle after edge 16: the first `WAIT` samples, the second needs a pulse of its own, RSVD 5 is still presented. -/
theorem test_second_wait_needs_its_pulse :
    react true (some (.rsvd5 0 0)) [.wait, .wait] = ⟨[.wait], some (.rsvd5 0 0), false, true, true⟩ := by decide
/-- Program 3, the cycle after edge 18: the second `WAIT` samples, and `MAG 768, 1024` is presented in the same cycle. -/
theorem test_command_after_wait :
    react true none [.wait, .issue (.mag 768 1024), .reset 6] = ⟨[.reset 5], some (.mag 768 1024), false, true, true⟩ := by decide
/-- A command still presented, in flight, or abandoned keeps the run open (R238). -/
theorem test_run_open :
    (Session.start State.reset [.issue (.sin 32 0)]).ended = false ∧
    (Session.ended ⟨flying 0 32 0 0, [], none, [], [], []⟩) = false ∧
    (Session.ended ⟨State.reset, [], none, [.sin 32 0], [], []⟩) = false ∧
    (Session.ended ⟨State.reset, [], none, [], [], []⟩) = true := by decide

/-! ## Witnesses: concrete states and operands that meet the hypotheses of each statement -/

/-- Literals at the ends of the ranges, and the first ones outside them (R69). -/
theorem witness_AssembledCommandsAreWellFormed :
    (TraceLine.cos (.decimal 255)).assemble = some (.issue (.cos 255 0)) ∧
    (within 0 255 (.decimal 255) ∧ ¬ within 0 255 (.hex 256) ∧ within 0 65535 (.hex 65535) ∧ ¬ within 0 65535 (.decimal (-1)) ∧
      within 5 7 (.decimal 5) ∧ ¬ within 5 7 (.decimal 8)) ∧
    signedOperand (.decimal (-32768)) ∧ signedOperand (.hex 0xFFFF) ∧ ¬ signedOperand (.decimal 32768) ∧ ¬ signedOperand (.hex 0x10000) := by
  unfold within signedOperand
  decide

theorem witness_CompletionEdgeRunsLatchedWord : (flying 7 1 2 0).booted = true ∧ completes (flying 7 1 2 0) :=
  ⟨rfl, rfl, rfl, rfl⟩

/-- Both ways of meeting the boot rule: a unit that has been reset, and one that has not but is not read. -/
theorem witness_ResetEdgeWritesVisibleRegisters :
    ((driven [resetting]).booted = true ∧ (driven [resetting]).input.rst = true) ∧
    (let s := State.powerUp Config.reference 0 [resetting]
     s.booted = false ∧ s.input.reads = false ∧ s.input.rst = true) := ⟨⟨rfl, rfl⟩, rfl, rfl, rfl⟩

theorem witness_HeldResetKeepsResetState :
    let s := State.powerUp Config.reference 0 [resetting, { resetting with reads := true }]
    s.input.reads = false ∧ ∀ k, k ≤ 1 → (s.host.getD k HostCycle.idle).rst = true :=
  ⟨rfl, by decide⟩

/-- Acceptance of each of the two ops whose datapaths load at the next edge, and of one more. -/
theorem witness_AcceptanceEdgeLatchesCommand :
    ∀ op ∈ [(2 : OpCode), 3, 4],
      (driven [present op 5 6]).booted = true ∧ accepts (driven [present op 5 6]) ∧
      (driven [present op 5 6]).input.cmdOp = op ∧ (driven [present op 5 6]).noResetFor 2 := by
  intro op _
  exact ⟨rfl, ⟨rfl, rfl, rfl⟩, rfl, noResetFor_of_all _ rfl 2⟩

/-- Acceptance of ISQRT, and of an op that leaves the accumulator as it is. -/
theorem witness_AcceptanceKeepsOtherWorkRegisters :
    ∀ op ∈ [(0 : OpCode), 3],
      (driven [present op 5 6]).booted = true ∧ accepts (driven [present op 5 6]) ∧ (driven [present op 5 6]).input.cmdOp = op := by
  intro op _
  exact ⟨rfl, ⟨rfl, rfl, rfl⟩, rfl⟩

theorem witness_CountdownEdgeDecrements :
    (flying 4 768 1024 15).booted = true ∧ (flying 4 768 1024 15).input.rst = false ∧ (flying 4 768 1024 15).busy = true ∧
    (flying 4 768 1024 15).cnt ≠ 0 := by decide

theorem witness_IdleEdgeWritesOnlyDone :
    let s := { State.reset with doneR := true, resultR := 0x00B5 }
    s.booted = true ∧ s.input.rst = false ∧ s.busy = false ∧ s.input.cmdValid = false := ⟨rfl, rfl, rfl, rfl⟩

/-- Each of the five cases of R226, in a unit that has been reset. -/
theorem witness_StepRefinesEdgePseudocode :
    (driven [resetting]).booted = true ∧ (driven [resetting]).input.rst = true ∧
    accepts (driven [present 6 0 0]) ∧ State.reset.input.cmdValid = false ∧ State.reset.busy = false ∧
    (flying 2 1 1 1).busy = true ∧ (flying 2 1 1 1).cnt ≠ 0 ∧ completes (flying 2 1 1 0) :=
  ⟨rfl, rfl, ⟨rfl, rfl, rfl⟩, rfl, rfl, rfl, by decide, rfl, rfl, rfl⟩

/-- A completion edge, after which `done_r` is 1, and the edge after it. -/
theorem witness_DoneIsHighOneCycleAfterCompletion :
    ∃ t u, step (flying 5 0 0 0) = .next t ∧ step t = .next u ∧ t.doneR = true ∧ completes (flying 5 0 0 0) :=
  ⟨_, _, rfl, rfl, rfl, rfl, rfl, rfl⟩

/-- A completion edge, which is no acceptance, and an acceptance edge, which is no completion. -/
theorem witness_RegistersChangeOnlyAtTheirEdges :
    (∃ t, step (flying 5 0 0 0) = .next t ∧ (flying 5 0 0 0).input.rst = false ∧ completes (flying 5 0 0 0)) ∧
    ¬ accepts (flying 5 0 0 0) ∧
    (∃ t, step (driven [present 0 32 0]) = .next t ∧ accepts (driven [present 0 32 0])) ∧
    ¬ completes (driven [present 0 32 0]) :=
  ⟨⟨_, rfl, rfl, rfl, rfl, rfl⟩, by unfold accepts; decide, ⟨_, rfl, rfl, rfl, rfl⟩, by unfold completes; decide⟩

theorem witness_BuiltInStateNeverChanges : ∃ t, step (driven [resetting]) = .next t := ⟨_, rfl⟩

/-- The ROM of the corner cases, and two operands that differ in ignored bits only. -/
theorem witness_SinWritesTableSine :
    State.reset.rom = sineTable ∧ (0xFF80 : Word).toNat % 256 = (0x0080 : Word).toNat % 256 := ⟨rfl, by decide⟩

theorem witness_CosWritesShiftedTableSine :
    State.reset.rom = sineTable ∧ (0xFFC0 : Word).toNat % 256 = (0x00C0 : Word).toNat % 256 := ⟨rfl, by decide⟩

/-- The last angle before the phase wraps and the first after it. -/
theorem witness_CosIsSinAQuarterTurnOn :
    (255 : Word).toNat % 256 = ((191 : Word).toNat % 256 + 64) % 256 ∧
    (0 : Word).toNat % 256 = ((192 : Word).toNat % 256 + 64) % 256 := by decide

theorem witness_FoldedSineIdentities : (0 : Nat) ≤ 63 ∧ (63 : Nat) ≤ 63 := by decide

theorem witness_SineErrorIsBounded : (63 : Angle).toNat / 64 = 0 ∧ (128 : Angle).toNat / 64 = 2 := by decide

theorem witness_RomEntriesAreRoundedSines : (63 : Fin 64).val ≠ 26 ∧ (63 : Fin 64).val ≠ 27 := by decide

/-- Other contents in every entry but entry 0, which `SIN 0` reads, and but entry 63, which `COS 0` reads; a command that reads none. -/
theorem witness_OneRomWordPerSineCommand :
    (Vector.replicate 64 (0 : Word))[(0 : Fin 64)] = State.reset.rom[(0 : Fin 64)] ∧
    (Vector.replicate 64 (256 : Word))[(63 : Fin 64)] = State.reset.rom[(63 : Fin 64)] ∧
    (Instr.mag 1 1).op ≠ 0 ∧ (Instr.mag 1 1).op ≠ 1 := by decide

theorem witness_Atan2WritesCorrectedRatioAngle :
    State.reset.config.atanShift.amount = 2 ∧ 0 < (0x7FFF : Word).toInt ∧ (0x8000 : Word).toInt < 0 ∧
    ∃ t, exec (.atan2 0x8000 1) State.reset = .next t := ⟨rfl, by decide, by decide, _, rfl⟩

/-- Equal magnitudes at the end of the range, and an inverted branch next to the diagonal. -/
theorem witness_RatioIsBoundedAndDivisorNonzero :
    ¬ ((0x8000 : Word).toInt = 0 ∧ (0x8000 : Word).toInt = 0) ∧ |(0x8000 : Word).toInt| = |(0x8000 : Word).toInt| ∧
    ¬ ((255 : Word).toInt = 0 ∧ (256 : Word).toInt = 0) ∧ inverted 256 255 = true := by decide

/-- An operand pair at the edge of each quadrant, and both shifts. -/
theorem witness_Atan2StaysInClosedQuadrant :
    (∀ p ∈ [((0 : Word), (1 : Word)), (0, 0xFFFF), (0xFFFF, 0xFFFF), (0xFFFF, 0)],
      ¬ (p.2.toInt = 0 ∧ p.1.toInt = 0)) ∧
    (0 ≤ (1 : Word).toInt ∧ 0 ≤ (0 : Word).toInt) ∧ ((0xFFFF : Word).toInt < 0 ∧ 0 ≤ (0 : Word).toInt) ∧
    ((0xFFFF : Word).toInt < 0 ∧ (0xFFFF : Word).toInt < 0) ∧ (0 ≤ (0 : Word).toInt ∧ (0xFFFF : Word).toInt < 0) ∧
    (∃ t, exec (.atan2 0 0xFFFF) State.reset = .next t) ∧ State.reset.config.atanShift.amount = 2 :=
  ⟨by intro p hp; fin_cases hp <;> decide, by decide, by decide, by decide, by decide, ⟨_, rfl⟩, rfl⟩

theorem witness_Atan2AxisValuesAreExact : 0 < (1 : Word).toInt ∧ (0x8000 : Word).toInt < 0 := by decide

theorem witness_IsqrtWritesExactRoot : ∃ t, exec (.isqrt 0xFFFF 0) State.reset = .next t ∧ t.resultR = 255 := ⟨_, rfl, by decide⟩

theorem witness_TrialsAboveBitSevenAreRejected : 8 ≤ 8 ∧ 14 ≤ 14 ∧ (7 : Nat) ≤ 7 ∧ rootTrial 0xFFFF 8 0 = 0 := by decide

theorem witness_MagWritesRescaledRoot :
    State.reset.config.magShift = 4 ∧ ∃ t, exec (.mag 0x8000 0x8000) State.reset = .next t ∧ t.ovfR = true :=
  ⟨rfl, _, rfl, by decide⟩

/-- An equal pair of opposite signs, at the boundary. -/
theorem witness_MagOverflowBoundaryIsExact :
    |(0xF4AF : Word).toInt| = |(0x0B51 : Word).toInt| ∧
    (∃ t, exec (.mag 0xF4AF 0x0B51) State.reset = .next t ∧ t.ovfR = true) ∧
    (∃ t, exec (.mag 0x0FFF 0) State.reset = .next t ∧ t.ovfR = false) :=
  ⟨by decide, ⟨_, rfl, by decide⟩, _, rfl, by decide⟩

theorem witness_MagIsSymmetricAndMonotone :
    |(0xFD00 : Word).toInt| = |(0x0300 : Word).toInt| ∧ |(0x0300 : Word).toInt| ≤ |(0x0B50 : Word).toInt| ∧
    State.reset.config.magShift = 4 ∧
    (∃ t, exec (.mag 0x0300 0x0400) State.reset = .next t ∧ t.ovfR = false) ∧
    (∃ t, exec (.mag 0x0B50 0x0B50) State.reset = .next t ∧ t.ovfR = false) :=
  ⟨by decide, by decide, rfl, ⟨_, rfl, by decide⟩, _, rfl, by decide⟩

/-- Each reserved op at an acceptance edge, under the shortest and the longest latency. -/
theorem witness_ReservedOpsCompleteWithError :
    ∀ op ∈ [(5 : OpCode), 6, 7], ∀ l ∈ [(⟨0⟩ : Latency), ⟨31⟩],
      let s := { driven [present op 0 0] with config := { Config.reference with latRsvd := l } }
      s.booted = true ∧ accepts s ∧ s.input.cmdOp = op ∧ s.noResetFor (l.edges + 1) := by
  intro op _ l _
  exact ⟨rfl, ⟨rfl, rfl, rfl⟩, rfl, noResetFor_of_all _ rfl _⟩

/-- Each status code that occurs, from a command that leaves it. -/
theorem witness_StatusCodeNamesItsCause :
    (∃ t, exec (.sin 0 0) State.reset = .next t ∧ t.status = .ok) ∧
    (∃ t, exec (.mag 0x1000 0) State.reset = .next t ∧ t.status = .magOverflow) ∧
    (∃ t, exec (.rsvd7 0 0) State.reset = .next t ∧ t.status = .reservedOp) :=
  ⟨⟨_, rfl, by decide⟩, ⟨_, rfl, by decide⟩, _, rfl, by decide⟩

theorem witness_FrameOfOpsWithoutWorkRegisters :
    (Instr.cos 1 2).op ≠ 2 ∧ (Instr.cos 1 2).op ≠ 3 ∧ (Instr.cos 1 2).op ≠ 4 ∧ ∃ t, exec (.cos 1 2) State.reset = .next t :=
  ⟨by decide, by decide, by decide, _, rfl⟩

theorem witness_FrameOfOpsWithWorkRegisters :
    (∃ t, exec (.atan2 1 2) State.reset = .next t) ∧ (∃ t, exec (.isqrt 1 2) State.reset = .next t) ∧
    ∃ t, exec (.mag 1 2) State.reset = .next t := ⟨⟨_, rfl⟩, ⟨_, rfl⟩, _, rfl⟩

/-- Two different states with the same ROM and shifts. -/
theorem witness_ResultDependsOnCommandAlone :
    let s := State.reset
    let t := { flying 4 768 1024 9 with config := { Config.reference with latSin := ⟨31⟩ } }
    s.rom = t.rom ∧ s.config.magShift = t.config.magShift ∧ s.config.atanShift = t.config.atanShift ∧ s ≠ t :=
  ⟨rfl, rfl, rfl, by decide⟩

theorem witness_IgnoredBitsHaveNoEffect : (0xFF40 : Word).extractLsb' 0 8 = (0x0040 : Word).extractLsb' 0 8 := by decide

theorem witness_BusyUnitIgnoresCommandPort :
    (flying 2 1 1 0).booted = true ∧ (flying 2 1 1 0).busy = true ∧ (present 3 1 1).rst = false ∧ HostCycle.idle.rst = false ∧
    present 3 1 1 ≠ HostCycle.idle := by decide

theorem witness_OutputRegistersAreNeverRead : ∃ t, step (driven [present 0 32 0]) = .next t := ⟨_, rfl⟩

/-- Idle units that differ in every hidden register, and a busy one with another work register. -/
theorem witness_HiddenRegistersAreUnobservable :
    agreeOutsideHidden State.reset
      { State.reset with cnt := 9, opR := 4, aR := 1, bR := 2, rooter := { acc := 3, v := 4, ovfP := true }, draws := 15 } ∧
    agreeOutsideHidden (flying 4 768 1024 7) { flying 4 768 1024 7 with draws := 1 } :=
  ⟨⟨rfl, rfl, rfl, rfl, rfl, rfl, rfl, fun h => (by cases h), fun h => (by cases h)⟩,
    rfl, rfl, rfl, rfl, rfl, rfl, rfl, fun _ => ⟨rfl, rfl, rfl, rfl⟩, fun h => (by cases h)⟩

theorem witness_OutputsAreDrivenFromRegisters : (present 3 1 1).rst = HostCycle.idle.rst := by decide

/-- A command accepted while another waits behind it, under the longest latency of the table. -/
theorem witness_CommandCompletesAfterItsLatency :
    let s := driven [present 4 768 1024, present 0 32 0]
    s.booted = true ∧ accepts s ∧ s.noResetFor (lat s.config s.input.cmdOp + 1) :=
  ⟨rfl, ⟨rfl, rfl, rfl⟩, noResetFor_of_all _ rfl _⟩

theorem witness_UnitNeverHangs :
    let s := flying 4 768 1024 31
    s.booted = true ∧ s.busy = true ∧ s.noResetFor (s.cnt.toNat + 1) := ⟨rfl, rfl, noResetFor_of_all _ rfl _⟩

/-- Back-to-back SIN commands: accepted at the first and the third edge. -/
theorem witness_AcceptancesAreSpaced :
    let s := driven [present 0 32 0, present 0 33 0, present 0 33 0]
    s.booted = true ∧ accepts s ∧ s.noResetFor (lat s.config s.input.cmdOp + 2) ∧
    (s.host.getD (lat s.config s.input.cmdOp + 1) HostCycle.idle).cmdValid = true ∧
    ∃ t, runFor 2 s = .next t ∧ accepts t :=
  ⟨rfl, ⟨rfl, rfl, rfl⟩, noResetFor_of_all _ rfl _, rfl, _, rfl, rfl, rfl, rfl⟩

theorem witness_ResetAbandonsCommandInFlight :
    let s := { flying 4 768 1024 7 with host := [resetting] }
    s.booted = true ∧ s.busy = true ∧ s.input.rst = true ∧ noCommandFor s.tick 3 := by
  refine ⟨rfl, rfl, rfl, ?_⟩
  unfold noCommandFor
  decide

theorem witness_IdleUnitKeepsItsRegisters :
    let s := { State.reset with doneR := true, resultR := 0x00F0 }
    s.booted = true ∧ s.busy = false ∧ s.noResetFor 2 ∧ noCommandFor s 2 := by
  refine ⟨rfl, rfl, noResetFor_of_all _ rfl _, ?_⟩
  unfold noCommandFor
  decide

theorem witness_WaitedCommandShowsItsResult : State.reset.booted = true ∧ State.reset.cleanEntry = true := by decide

theorem witness_TraceEndsWithItsResultsInOrder : State.reset.booted = true ∧ State.reset.cleanEntry = true := by decide

/-- The earliest and the latest edge at which a reset abandons the command. -/
theorem witness_RunStaysOpenWithoutItsCompletions :
    State.reset.booted = true ∧ State.reset.cleanEntry = true ∧ 1 ≤ 1 ∧ 1 ≤ lat State.reset.config 0 ∧
    16 ≤ lat State.reset.config (Instr.mag 768 1024).op := by decide

/-- Both faults, a unit past its first reset, and an edge without reset or fault before it. -/
theorem witness_HostFaultsOnlyBeforeFirstReset :
    step { driven [{ HostCycle.idle with reads := true }] with booted := false } = .fault .readBeforeReset ∧
    step { driven [present 0 32 0] with booted := false } = .fault .commandBeforeReset ∧
    State.reset.booted = true ∧
    (let s := State.powerUp Config.reference 7 [HostCycle.idle]
     s.booted = false ∧ s.bootFault = none ∧ s.input.rst = false) := ⟨rfl, rfl, rfl, rfl, rfl, rfl⟩

theorem witness_CleanEntryHoldsAfterReset :
    ∃ t, (driven [resetting]).input.rst = true ∧ step (driven [resetting]) = .next t := ⟨_, rfl, rfl⟩

theorem witness_OneResetEdgeBootsTheUnit : resetting.rst = true ∧ resetting.reads = false := by decide

/-- The parameters at both ends of their ranges. -/
theorem witness_OnlyAdmittedConfigurationsExist :
    (∃ c, Config.ofParameters { magShift := 7, atanShift := 3, latSin := 32, latAtan2 := 1 } = .ok c) ∧
    Config.ofParameters { magShift := 8 } = .error .magShift ∧ Config.ofParameters { atanShift := 1 } = .error .atanShift ∧
    Config.ofParameters { latMag := 0 } = .error .latMag ∧ Config.ofParameters { latRsvd := 33 } = .error .latRsvd :=
  ⟨⟨_, rfl⟩, rfl, rfl, rfl, rfl⟩

/-- A state that meets the invariant with a command in flight, and its step. -/
theorem witness_StepKeepsMachineInvariant : (flying 4 768 1024 15).Inv ∧ ∃ t, step (flying 4 768 1024 15) = .next t :=
  ⟨⟨rfl, rfl, fun _ => by decide, fun h => (by cases h), fun h => (by cases h), by decide, fun h => (by cases h)⟩, _, rfl⟩

theorem witness_ResetEstablishesMachineInvariant :
    let s := State.powerUp Config.reference 0 [resetting]
    s.rom = sineTable ∧ s.input.rst = true ∧ ∃ t, step s = .next t := ⟨rfl, rfl, _, rfl⟩

/-- The most negative operand, and the zero vector. -/
theorem witness_DividerEndsWithAtan2Result :
    ∀ p ∈ [((0x8000 : Word), (0x7FFF : Word)), (0, 0)],
      let s := driven [present 2 p.1 p.2]
      s.booted = true ∧ accepts s ∧ s.input.cmdOp = 2 ∧ s.config.latAtan2.edges = 10 ∧ s.noResetFor 11 := by
  intro p _
  exact ⟨rfl, ⟨rfl, rfl, rfl⟩, rfl, rfl, noResetFor_of_all _ rfl _⟩

theorem witness_BitSerialSearchEndsWithRoot :
    let s := driven [present 3 0xFFFF 0]
    s.booted = true ∧ accepts s ∧ s.input.cmdOp = 3 ∧ s.config.latIsqrt.edges = 15 ∧ s.noResetFor 16 :=
  ⟨rfl, ⟨rfl, rfl, rfl⟩, rfl, rfl, noResetFor_of_all _ rfl _⟩

theorem witness_MagPipeEndsWithMagResult :
    let s := driven [present 4 0x0B51 0x0B51]
    s.booted = true ∧ accepts s ∧ s.input.cmdOp = 4 ∧ s.config.latMag.edges = 16 ∧ s.noResetFor 17 :=
  ⟨rfl, ⟨rfl, rfl, rfl⟩, rfl, rfl, noResetFor_of_all _ rfl _⟩

end Sys2Proof.Tests
end

/-! PROOFS. The scope of the unit: which configurations exist (00_scope.md R6 to R8), and what a command's triple depends on (R12). -/

namespace Sys2Proof

/-! ### The admitted values of each parameter -/

/-- R7: the enumeration holds the amounts it is made from. -/
theorem AtanShift.ofAmount_eq_some {n : Nat} {s : AtanShift} : AtanShift.ofAmount n = some s ↔ s.amount = n := by
  constructor
  · intro h
    unfold AtanShift.ofAmount at h
    split at h <;> cases h <;> rfl
  · rintro rfl
    cases s <;> rfl

theorem AtanShift.exists_amount_eq {n : Nat} : (∃ s : AtanShift, s.amount = n) ↔ n = 2 ∨ n = 3 := by
  constructor
  · rintro ⟨_ | _, rfl⟩
    · exact .inl rfl
    · exact .inr rfl
  · rintro (rfl | rfl)
    · exact ⟨.quarter, rfl⟩
    · exact ⟨.eighth, rfl⟩

/-- R8: a latency counts the edges it is made from. -/
theorem Latency.ofEdges_eq_some {n : Nat} {l : Latency} : Latency.ofEdges n = some l ↔ l.edges = n := by
  constructor
  · intro h
    unfold Latency.ofEdges at h
    split at h <;> cases h
    simp only [Latency.edges]
    omega
  · rintro rfl
    exact dif_pos (Machine.Latency.edges_bounds l)

theorem Latency.exists_edges_eq {n : Nat} : (∃ l : Latency, l.edges = n) ↔ 1 ≤ n ∧ n ≤ 32 := by
  constructor
  · rintro ⟨l, rfl⟩
    exact Machine.Latency.edges_bounds l
  · intro h
    exact ⟨⟨⟨n - 1, by omega⟩⟩, Nat.sub_add_cancel h.1⟩

/-! ### A configuration and its numbers -/

/-- The numbers a configuration holds: what `Config.ofParameters` makes it from (`Config.ofParameters_eq_ok`). -/
def Config.parameters (c : Config) : Config.Parameters where
  magShift := c.magShift.val
  atanShift := c.atanShift.amount
  latSin := c.latSin.edges
  latCos := c.latCos.edges
  latAtan2 := c.latAtan2.edges
  latIsqrt := c.latIsqrt.edges
  latMag := c.latMag.edges
  latRsvd := c.latRsvd.edges

/-- A making that begins with a required value succeeds exactly if the value is there and the rest succeeds with it. -/
theorem Config.require_bind_eq_ok {α : Type} {what : Config.Inadmissible} {o : Option α}
    {f : α → Except Config.Inadmissible Config} {c : Config} :
    (Config.require what o >>= f) = .ok c ↔ ∃ v, o = some v ∧ f v = .ok c := by
  cases o with
  | none => exact ⟨nofun, nofun⟩
  | some v => exact ⟨fun h => ⟨v, rfl, h⟩, fun ⟨_, hv, h⟩ => Option.some.inj hv ▸ h⟩

/-- R6, R7, R8, D34: numbers make a configuration exactly if it holds those numbers. -/
theorem Config.ofParameters_eq_ok {p : Config.Parameters} {c : Config} :
    Config.ofParameters p = .ok c ↔ c.parameters = p := by
  simp only [Config.ofParameters, Config.require_bind_eq_ok, AtanShift.ofAmount_eq_some, Latency.ofEdges_eq_some,
    Option.dite_none_right_eq_some]
  constructor
  · rintro ⟨_, ⟨_, ⟨⟩⟩, _, hatan, _, hsin, _, hcos, _, hatan2, _, hisqrt, _, hmag, _, hrsvd, ⟨⟩⟩
    simp only [Config.parameters, hatan, hsin, hcos, hatan2, hisqrt, hmag, hrsvd]
  · rintro rfl
    exact ⟨_, ⟨c.magShift.isLt, rfl⟩, _, rfl, _, rfl, _, rfl, _, rfl, _, rfl, _, rfl, _, rfl, rfl⟩

/-- The parameters are admitted one by one: no range of R6, R7 or R8 depends on another parameter. -/
theorem Config.exists_parameters_eq {p : Config.Parameters} :
    (∃ c : Config, c.parameters = p) ↔
      p.magShift ≤ 7 ∧ (∃ s : AtanShift, s.amount = p.atanShift) ∧ (∃ l : Latency, l.edges = p.latSin) ∧
      (∃ l : Latency, l.edges = p.latCos) ∧ (∃ l : Latency, l.edges = p.latAtan2) ∧ (∃ l : Latency, l.edges = p.latIsqrt) ∧
      (∃ l : Latency, l.edges = p.latMag) ∧ (∃ l : Latency, l.edges = p.latRsvd) := by
  constructor
  · rintro ⟨c, rfl⟩
    exact ⟨Fin.is_le c.magShift, ⟨_, rfl⟩, ⟨_, rfl⟩, ⟨_, rfl⟩, ⟨_, rfl⟩, ⟨_, rfl⟩, ⟨_, rfl⟩, ⟨_, rfl⟩⟩
  · rintro ⟨hm, ⟨shift, hatan⟩, ⟨sin, hsin⟩, ⟨cos, hcos⟩, ⟨atan2, hatan2⟩, ⟨isqrt, hisqrt⟩, ⟨mag, hmag⟩, ⟨rsvd, hrsvd⟩⟩
    refine ⟨⟨⟨p.magShift, by omega⟩, shift, sin, cos, atan2, isqrt, mag, rsvd⟩, ?_⟩
    simp only [Config.parameters, hatan, hsin, hcos, hatan2, hisqrt, hmag, hrsvd]

/-- Settles O55: making a configuration inverts reading its numbers, so the existence, the values kept and the default are facts about
`Config.parameters`. -/
theorem onlyAdmittedConfigurationsExist : Obligations.OnlyAdmittedConfigurationsExist := by
  unfold Obligations.OnlyAdmittedConfigurationsExist
  simp only [Config.ofParameters_eq_ok]
  refine ⟨fun p => ?_, ?_, rfl⟩
  · simp only [Config.exists_parameters_eq, AtanShift.exists_amount_eq, Latency.exists_edges_eq]
  · rintro _ c rfl
    exact ⟨rfl, rfl, rfl, rfl, rfl, rfl, rfl, rfl⟩

end Sys2Proof

namespace Sys2Proof.Machine

open Sys2Proof.Claims

/-! ### The triple of a command -/

@[simp] theorem State.shown_complete (s : State) (c : Completion) : (s.complete c).shown = c := rfl

/-- R12: what a command answers is its architectural result, and nothing else. -/
theorem answers_iff {i : Instr} {s : State} {c : Completion} : answers i s c ↔ resultOf s.config s.rom i = c := by
  simp [answers, exec_eq]

/-- R46: of a configuration the result functions read the two shifts only. -/
theorem resultOf_congr {c d : Config} (rom : Rom) (hmag : c.magShift = d.magShift) (hatan : c.atanShift = d.atanShift)
    (i : Instr) : resultOf c rom i = resultOf d rom i := by
  cases i with
  | atan2 a b => simp only [resultOf, resultAtan2, hatan]
  | mag a b => simp only [resultOf, resultMag, rescale, hmag]
  | sin a b | cos a b | isqrt a b | rsvd5 a b | rsvd6 a b | rsvd7 a b => rfl

/-- Settles O38: both states answer the command's result function at the same ROM and shifts. -/
theorem resultDependsOnCommandAlone : Obligations.ResultDependsOnCommandAlone := by
  intro i s t hrom hmag hatan
  refine ⟨resultOf s.config s.rom i, answers_iff.mpr rfl, answers_iff.mpr ?_⟩
  rw [hrom, resultOf_congr t.rom hmag hatan]

end Sys2Proof.Machine

/-! PROOFS. The registers of the unit (10_state.md R22 to R37): which edge writes which of them, the invariant that every edge keeps, what
no port shows, and the boot rule. -/

namespace Sys2Proof.Machine

open Sys2Proof.Claims

/-! ### What the edges do to the triple and to the latched command -/

@[simp] theorem State.shown_tick (s : State) : s.tick.shown = s.shown := rfl
@[simp] theorem State.shown_resetEdge (s : State) : s.resetEdge.shown = ⟨0, false, false⟩ := rfl
@[simp] theorem State.shown_acceptEdge (s : State) (c : HostCycle) : (s.acceptEdge c).shown = s.shown := rfl
@[simp] theorem State.shown_idleEdge (s : State) : s.idleEdge.shown = s.shown := rfl
@[simp] theorem State.shown_countdownEdge (s : State) : s.countdownEdge.shown = s.shown := by simp [State.shown]
@[simp] theorem State.latched_stepDatapath (s : State) (i : Instr) : (s.stepDatapath i).latched = s.latched := by
  simp [State.latched]
@[simp] theorem State.latched_complete (s : State) (c : Completion) : (s.complete c).latched = s.latched := rfl

/-! ### The edges that write each register -/

/-- R37, R228: no step takes a unit back to before its first reset edge. -/
theorem step_keeps_booted {s t : State} (hb : s.booted = true) (h : step s = .next t) : t.booted = true := by
  obtain ⟨-, rfl⟩ | ⟨-, -, -, rfl⟩ | ⟨-, -, -, rfl⟩ | ⟨-, -, -, rfl⟩ | ⟨-, -, -, rfl⟩ := step_cases_of_booted hb h <;> simp [hb]

/-- R28: the completion edge writes `done_r <- 1` and `busy <- 0`; every other edge writes `done_r <- 0`. -/
theorem step_done_iff_completes {s t : State} (hb : s.booted = true) (h : step s = .next t) : t.doneR = true ↔ completes s := by
  obtain ⟨hr, rfl⟩ | ⟨-, hbusy, -, rfl⟩ | ⟨-, hbusy, -, rfl⟩ | ⟨-, -, hc, rfl⟩ | ⟨hr, hbusy, hc, rfl⟩ :=
    step_cases_of_booted hb h
  · simp [completes, hr]
  · simp [completes, hbusy]
  · simp [completes, hbusy]
  · simp only [State.countdownEdge_doneR, completes, hc, and_false, Bool.false_eq_true]
  · simp only [State.complete_doneR, completes, hr, hbusy, hc, and_self]

/-- R22, R224: a completion edge leaves the unit idle. -/
theorem step_busy_of_completes {s t : State} (hb : s.booted = true) (h : step s = .next t) (hc : completes s) : t.busy = false := by
  obtain ⟨hr, hbusy, hcnt⟩ := hc
  rw [step_complete s hb hr hbusy hcnt, exec_eq] at h
  cases h
  rfl

/-- Settles O14: `done_r` marks the completion edges, and a completion edge leaves the unit idle, so the next edge is not one. -/
theorem doneIsHighOneCycleAfterCompletion : Obligations.DoneIsHighOneCycleAfterCompletion := by
  refine ⟨fun s t hb h => step_done_iff_completes hb h, fun s t u hb h h' hd => ?_, fun s => rfl, rfl⟩
  have hidle := step_busy_of_completes hb h ((step_done_iff_completes hb h).mp hd)
  have hnot : ¬ completes t := fun ⟨_, hbusy, _⟩ => by simp [hidle] at hbusy
  simpa using mt (step_done_iff_completes (step_keeps_booted hb h) h').mp hnot

/-- Settles O15: of R226's four edges without reset, the completion edge alone writes the triple and the acceptance edge alone the
latches. -/
theorem registersChangeOnlyAtTheirEdges : Obligations.RegistersChangeOnlyAtTheirEdges := by
  intro s t hb h hr
  obtain ⟨hr', -⟩ | ⟨-, hbusy, hv, rfl⟩ | ⟨-, hbusy, -, rfl⟩ | ⟨-, hbusy, hc, rfl⟩ | ⟨-, hbusy, hc, rfl⟩ :=
    step_cases_of_booted hb h
  · simp [hr] at hr'
  · simp [completes, accepts, hr, hbusy, hv]
  · simp [completes, hbusy]
  · exact ⟨fun _ => by simp, fun _ => by simp, fun hcompl => absurd hcompl.2.2 hc⟩
  · exact ⟨fun hn => absurd ⟨hr, hbusy, hc⟩ hn, fun _ => by simp, fun _ => by simp⟩

/-- Settles O16: each edge is a function of the state after the clock has moved on, and none of them writes a field that is built in. -/
theorem builtInStateNeverChanges : Obligations.BuiltInStateNeverChanges := by
  intro s t h
  obtain ⟨-, ⟨-, rfl⟩ | ⟨-, -, rfl⟩ | ⟨-, hc⟩⟩ := step_cases h
  · simp
  · simp
  · obtain ⟨-, -, -, rfl⟩ | ⟨-, -, -, rfl⟩ | ⟨-, -, -, rfl⟩ | ⟨-, -, -, rfl⟩ := hc <;> simp

/-! ### The output ports -/

/-- Settles O43: every output is a function of the registers and of `rst`. -/
theorem outputsAreDrivenFromRegisters : Obligations.OutputsAreDrivenFromRegisters := by
  intro s c c' rest
  refine ⟨by simp [State.outputs], rfl, rfl, rfl, rfl, rfl, fun hrst => ?_⟩
  simp only [State.outputs, State.input_cons, hrst]

/-- `s` with other values in the registers that drive the outputs `result`, `ovf`, `err` and `done` (R33, R34). -/
def State.withOutputs (s : State) (w : Word) (o e d : Bool) : State :=
  { s with resultR := w, ovfR := o, errR := e, doneR := d }

theorem State.tick_withOutputs (s : State) (w : Word) (o e d : Bool) :
    (s.withOutputs w o e d).tick = s.tick.withOutputs w o e d := rfl

/-- R29: the datapaths do not see the output registers. -/
theorem State.stepDatapath_withOutputs (s : State) (w : Word) (o e d : Bool) (i : Instr) :
    (s.withOutputs w o e d).stepDatapath i = (s.stepDatapath i).withOutputs w o e d := by
  cases i <;> rfl

theorem State.countdownEdge_withOutputs (s : State) (w : Word) (o e d : Bool) :
    (s.withOutputs w o e d).countdownEdge = s.countdownEdge.withOutputs w o e false := by
  unfold State.countdownEdge
  rw [State.stepDatapath_withOutputs]
  rfl

/-- Settles O41: the same edge is taken, and it writes its registers from others than those of the outputs. -/
theorem outputRegistersAreNeverRead : Obligations.OutputRegistersAreNeverRead := by
  intro s t w o e d h
  change ∃ t', step (s.withOutputs w o e d) = .next t' ∧ _
  obtain ⟨hf, ⟨hr, rfl⟩ | ⟨hu, hr, rfl⟩ | ⟨hb, hc⟩⟩ := step_cases h
  · exact ⟨_, step_reset _ hf hr, rfl⟩
  · exact ⟨_, step_unreset _ hf hr hu, rfl⟩
  obtain ⟨hr, hbusy, hv, rfl⟩ | ⟨hr, hbusy, hv, rfl⟩ | ⟨hr, hbusy, hc, rfl⟩ | ⟨hr, hbusy, hc, rfl⟩ := hc
  · exact ⟨_, step_accept _ hb hr hbusy hv, rfl⟩
  · exact ⟨_, step_idle _ hb hr hbusy hv, rfl⟩
  · refine ⟨_, step_countdown (s.withOutputs w o e d) hb hr hbusy hc, ?_⟩
    rw [State.tick_withOutputs, State.countdownEdge_withOutputs]
    rfl
  · refine ⟨_, (step_complete (s.withOutputs w o e d) hb hr hbusy hc).trans (exec_eq _ _), ?_⟩
    rw [State.tick_withOutputs, State.stepDatapath_withOutputs]
    rfl

/-! ### What no port shows -/

/-- States that agree outside the hidden registers do so either way round. -/
theorem agreeOutsideHidden_symm {s t : State} (h : agreeOutsideHidden s t) : agreeOutsideHidden t s := by
  obtain ⟨hconfig, hrom, hbusy, hshown, hdone, hbooted, hhost, hflight, hdraws⟩ := h
  refine ⟨hconfig.symm, hrom.symm, hbusy.symm, hshown.symm, hdone.symm, hbooted.symm, hhost.symm, fun hb => ?_, fun hu => ?_⟩
  · obtain ⟨hcnt, hop, ha, hb⟩ := hflight (hbusy ▸ hb)
    exact ⟨hcnt.symm, hop.symm, ha.symm, hb.symm⟩
  · exact (hdraws (hbooted ▸ hu)).symm

/-- R37: an edge before the first reset edge leaves of a unit what is built in, and draws. -/
theorem State.drawAll_congr {s t : State} (hconfig : t.config = s.config) (hrom : t.rom = s.rom) (hbooted : t.booted = s.booted)
    (hdraws : t.draws = s.draws) (hhost : t.host = s.host) : t.drawAll = s.drawAll := by
  cases s
  cases t
  cases hconfig
  cases hrom
  cases hbooted
  cases hdraws
  cases hhost
  rfl

/-- States that agree outside the hidden registers show the same outputs. -/
theorem outputs_of_agree {s t : State} (h : agreeOutsideHidden s t) : s.outputs = t.outputs := by
  obtain ⟨-, -, hbusy, hshown, hdone, -, hhost, -, -⟩ := h
  obtain ⟨hresult, hovf, herr⟩ := Completion.mk.inj hshown
  simp only [State.outputs, State.input, hbusy, hresult, hovf, herr, hdone, hhost]

/-- States that agree outside the hidden registers take the same edge, and agree after it. -/
theorem step_of_agree {s t u : State} (h : agreeOutsideHidden s t) (hs : step s = .next u) :
    ∃ v, step t = .next v ∧ agreeOutsideHidden u v := by
  obtain ⟨hconfig, hrom, hbusy, hshown, hdone, hbooted, hhost, hflight, hdraws⟩ := h
  have hinput : t.input = s.input := by simp only [State.input, hhost]
  have hfault : t.bootFault = s.bootFault := by simp only [State.bootFault, hbooted, hinput]
  have htail : t.tick.host = s.tick.host := congrArg List.tail hhost
  obtain ⟨hf, ⟨hr, rfl⟩ | ⟨hu, hr, rfl⟩ | ⟨hb, hc⟩⟩ := step_cases hs
  · refine ⟨_, step_reset t (hfault.trans hf) (hinput ▸ hr), ?_⟩
    exact ⟨hconfig, hrom, rfl, rfl, rfl, rfl, htail, nofun, nofun⟩
  · refine ⟨_, step_unreset t (hfault.trans hf) (hinput ▸ hr) (hbooted.trans hu), ?_⟩
    have heq : t.tick.unresetEdge = s.tick.unresetEdge := State.drawAll_congr hconfig hrom hbooted (hdraws hu) htail
    exact heq ▸ ⟨rfl, rfl, rfl, rfl, rfl, rfl, rfl, fun _ => ⟨rfl, rfl, rfl, rfl⟩, fun _ => rfl⟩
  have hbt : t.booted = true := hbooted.trans hb
  obtain ⟨hr, hidle, hv, rfl⟩ | ⟨hr, hidle, hv, rfl⟩ | ⟨hr, hbusy', hcnt, rfl⟩ | ⟨hr, hbusy', hcnt, rfl⟩ := hc
  · refine ⟨_, step_accept t hbt (hinput ▸ hr) (hbusy.trans hidle) (hinput ▸ hv), ?_⟩
    simp [agreeOutsideHidden, hconfig, hrom, hshown, hb, hbt, hhost, hinput]
  · refine ⟨_, step_idle t hbt (hinput ▸ hr) (hbusy.trans hidle) (hinput ▸ hv), ?_⟩
    simp [agreeOutsideHidden, hconfig, hrom, hbusy, hidle, hshown, hb, hbt, hhost]
  all_goals obtain ⟨hcnt', hop, ha, hb'⟩ := hflight hbusy'
  · refine ⟨_, step_countdown t hbt (hinput ▸ hr) (hbusy.trans hbusy') (hcnt'.trans_ne hcnt), ?_⟩
    simp [agreeOutsideHidden, hconfig, hrom, hbusy, hshown, hb, hbt, hhost, hcnt', hop, ha, hb']
  · refine ⟨_, (step_complete t hbt (hinput ▸ hr) (hbusy.trans hbusy') (hcnt'.trans hcnt)).trans (exec_eq _ _), ?_⟩
    have hlatched : t.latched = s.latched := by simp only [State.latched, hop, ha, hb']
    simp [agreeOutsideHidden, hconfig, hrom, hb, hbt, hhost, hlatched]

/-- States that agree outside the hidden registers show the same completion, if any. -/
theorem completed_of_agree {s t : State} (h : agreeOutsideHidden s t) : s.completed = t.completed ∧ s.shown = t.shown := by
  obtain ⟨-, -, -, hshown, hdone, hbooted, -, -, -⟩ := h
  exact ⟨by simp only [State.completed, hdone, hbooted], hshown.symm⟩

/-- A run that stops at its first edge shows nothing. -/
theorem observations_of_stop {s : State} (n : Nat) (h : ∀ t, step s ≠ .next t) : observations n s = [] := by
  cases n with
  | zero => rfl
  | succ n =>
    unfold observations
    split
    · next t ht => exact absurd ht (h t)
    · rfl
    · rfl

/-- A run of one edge more that ends has its first edge. -/
theorem exists_step_of_runFor_succ {n : Nat} {s u : State} (h : runFor (n + 1) s = .next u) :
    ∃ t, step s = .next t ∧ runFor n t = .next u := by
  unfold runFor at h
  split at h
  · next t ht => exact ⟨t, ht, h⟩
  · cases h
  · cases h

theorem observations_of_agree (n : Nat) {s t : State} (h : agreeOutsideHidden s t) : observations n s = observations n t := by
  induction n generalizing s t with
  | zero => rfl
  | succ n ih =>
    by_cases hs : ∃ u, step s = .next u
    · obtain ⟨u, hu⟩ := hs
      obtain ⟨v, hv, huv⟩ := step_of_agree h hu
      obtain ⟨hcompleted, hshown⟩ := completed_of_agree huv
      rw [observations_succ n hu, observations_succ n hv, ih huv, hcompleted, hshown]
    · have ht : ¬ ∃ v, step t = .next v := fun ⟨_, hv⟩ =>
        have ⟨u, hu, _⟩ := step_of_agree (agreeOutsideHidden_symm h) hv
        hs ⟨u, hu⟩
      rw [observations_of_stop _ (not_exists.mp hs), observations_of_stop _ (not_exists.mp ht)]

theorem runFor_of_agree (n : Nat) {s t u : State} (h : agreeOutsideHidden s t) (hu : runFor n s = .next u) :
    ∃ v, runFor n t = .next v ∧ agreeOutsideHidden u v := by
  induction n generalizing s t with
  | zero => cases hu; exact ⟨t, rfl, h⟩
  | succ n ih =>
    obtain ⟨s', hs', hrun⟩ := exists_step_of_runFor_succ hu
    obtain ⟨t', ht', hagree⟩ := step_of_agree h hs'
    rw [runFor_succ n ht']
    exact ih hagree hrun

/-- Settles O42: agreement outside the hidden registers is a simulation, and it fixes the outputs and the completions. -/
theorem hiddenRegistersAreUnobservable : Obligations.HiddenRegistersAreUnobservable := by
  refine fun n s t h => ⟨observations_of_agree n h, fun u hu => ?_⟩
  obtain ⟨v, hv, huv⟩ := runFor_of_agree n h hu
  exact ⟨v, hv, huv, outputs_of_agree huv⟩

/-! ### The invariant of the machine -/

/-- The status code is the flags of the triple. -/
theorem State.status_eq (s : State) : s.status = statusCode s.shown.err s.shown.ovf := rfl

/-- R201: no command answers both flags. -/
theorem statusCode_resultOf (c : Config) (rom : Rom) (i : Instr) :
    statusCode (resultOf c rom i).err (resultOf c rom i).ovf ≠ .neverProduced := by
  cases i with
  | mag a b => cases h : magOverflow (squareSum a b) <;> simp [resultOf, resultMag, statusCode, h]
  | sin a b | cos a b | atan2 a b | isqrt a b | rsvd5 a b | rsvd6 a b | rsvd7 a b => exact nofun

/-- R66: a command that answers `err` answers 0x0000. -/
theorem result_resultOf_of_err {c : Config} {rom : Rom} {i : Instr} (h : (resultOf c rom i).err = true) :
    (resultOf c rom i).result = 0 := by
  cases i with
  | rsvd5 a b | rsvd6 a b | rsvd7 a b => rfl
  | sin a b | cos a b | atan2 a b | isqrt a b | mag a b => cases h

/-- R220, R226: a reset edge establishes the invariant, whatever the registers held. -/
theorem State.inv_resetEdge {s : State} (hrom : s.rom = sineTable) : s.resetEdge.Inv where
  booted := rfl
  rom := hrom
  count := nofun
  doneIdle := nofun
  doneTriple := nofun
  status := nofun
  reserved := nofun

theorem State.Inv.acceptEdge {s : State} (h : s.Inv) (c : HostCycle) : (s.acceptEdge c).Inv where
  booted := h.booted
  rom := h.rom
  count _ := by
    have := Latency.edges_bounds (latencyOf s.config c.cmdOp)
    simp only [State.acceptEdge_cnt, countLoad_toNat, State.acceptEdge_config, State.acceptEdge_opR]
    omega
  doneIdle := nofun
  doneTriple := nofun
  status := h.status
  reserved := h.reserved

theorem State.Inv.idleEdge {s : State} (h : s.Inv) : s.idleEdge.Inv where
  booted := h.booted
  rom := h.rom
  count := h.count
  doneIdle := nofun
  doneTriple := nofun
  status := h.status
  reserved := h.reserved

/-- R23: `cnt` is not 0 at a countdown edge, so it goes down and does not wrap. -/
theorem State.Inv.countdownEdge {s : State} (h : s.Inv) (hcnt : s.cnt ≠ 0) : s.countdownEdge.Inv where
  booted := by simp [h.booted]
  rom := by simp [h.rom]
  count hbusy := by
    have hlt := h.count (by simpa using hbusy)
    simp only [State.countdownEdge_cnt, State.countdownEdge_config, State.countdownEdge_opR]
    bv_omega
  doneIdle := by simp
  doneTriple := by simp
  status := by simpa [State.status_eq] using h.status
  reserved := by simpa using h.reserved

theorem State.Inv.complete {s : State} (h : s.Inv) :
    ((s.stepDatapath s.latched).complete (resultOf s.config s.rom s.latched)).Inv where
  booted := by simp [h.booted]
  rom := by simp [h.rom]
  count := nofun
  doneIdle _ := rfl
  doneTriple _ := by simp
  status := statusCode_resultOf _ _ _
  reserved := result_resultOf_of_err

theorem State.Inv.tick {s : State} (h : s.Inv) : s.tick.Inv where
  booted := h.booted
  rom := h.rom
  count := h.count
  doneIdle := h.doneIdle
  doneTriple := h.doneTriple
  status := h.status
  reserved := h.reserved

/-- Settles O56: each of R226's five edges keeps the invariant. -/
theorem stepKeepsMachineInvariant : Obligations.StepKeepsMachineInvariant := by
  intro s t hinv h
  obtain ⟨-, rfl⟩ | ⟨-, -, -, rfl⟩ | ⟨-, -, -, rfl⟩ | ⟨-, -, hc, rfl⟩ | ⟨-, -, -, rfl⟩ := step_cases_of_booted hinv.booted h
  · exact State.inv_resetEdge hinv.rom
  · exact hinv.tick.acceptEdge s.input
  · exact hinv.tick.idleEdge
  · exact hinv.tick.countdownEdge hc
  · exact hinv.tick.complete

/-- Settles O57: the reset state shows nothing in flight and no completion, as every reset edge leaves the unit. -/
theorem resetEstablishesMachineInvariant : Obligations.ResetEstablishesMachineInvariant := by
  refine ⟨⟨rfl, rfl, nofun, nofun, nofun, nofun, nofun⟩, fun s t hrom hr h => ?_⟩
  obtain ⟨hf, -⟩ := step_cases h
  rw [step_reset s hf hr] at h
  cases h
  exact State.inv_resetEdge hrom

/-! ### Before the first reset edge -/

/-- A step is a fault exactly where the boot rule says so, and no command faults. -/
theorem step_eq_fault_iff {s : State} {f : Fault} : step s = .fault f ↔ s.bootFault = some f := by
  cases hb : s.bootFault with
  | some g => simp [step, hb]
  | none =>
    refine ⟨fun h => ?_, nofun⟩
    simp only [step, hb, exec_eq] at h
    split_ifs at h

theorem bootFault_eq_read_iff {s : State} : s.bootFault = some .readBeforeReset ↔ s.booted = false ∧ s.input.reads = true := by
  unfold State.bootFault
  split_ifs <;> simp_all

theorem bootFault_eq_command_iff {s : State} : s.bootFault = some .commandBeforeReset ↔
    s.booted = false ∧ s.input.reads = false ∧ s.input.cmdValid = true ∧ s.input.rst = false := by
  unfold State.bootFault
  split_ifs <;> simp_all

/-- R37, log 19: a `WAIT` at hand before the first reset edge watches `done` in that cycle. -/
theorem start_wait_reads {s : State} (hu : s.booted = false) (lines : List HostAction) :
    (Session.start s (.wait :: lines)).unit.input.reads = true := by
  simp only [Session.start, Session.turn, State.completed_of_unbooted hu, react_wait_quiet]
  rfl

/-- Settles O52: a step faults exactly by the boot rule, a `WAIT` at hand is a read, and an edge without reset or fault draws every register,
so that what they held is gone. -/
theorem hostFaultsOnlyBeforeFirstReset : Obligations.HostFaultsOnlyBeforeFirstReset := by
  refine fun s => ⟨step_eq_fault_iff.trans bootFault_eq_read_iff, step_eq_fault_iff.trans bootFault_eq_command_iff,
    ?_, ?_, fun hu lines => ?_, fun hu hf hr => ?_⟩
  · cases hb : s.booted <;> simp [State.readOutputs, hb]
  · intro hb
    simp [State.readOutputs, hb]
  · have hfault : step (Session.start s (.wait :: lines)).unit = .fault .readBeforeReset :=
      step_eq_fault_iff.mpr (bootFault_eq_read_iff.mpr ⟨hu, start_wait_reads hu lines⟩)
    simp only [Session.edge, hfault]
  · refine ⟨_, step_unreset s hf hr hu, hu, rfl, rfl, fun s' hu' hconfig hrom hdraws hhost => ?_⟩
    have hinput : s'.input = s.input := by simp only [State.input, hhost]
    have hf' : s'.bootFault = none := by simpa only [State.bootFault, hu, hu', hinput] using hf
    rw [step_unreset s' hf' (hinput ▸ hr) hu']
    exact congrArg _ (State.drawAll_congr hconfig hrom (hu'.trans hu.symm) hdraws (congrArg List.tail hhost))

end Sys2Proof.Machine

/-! PROOFS. The sine table against the exact quarter-wave sine (10_state.md R31). On the first quarter turn the sine lies within 2 · 10⁻⁹ of
its Taylor polynomial of degree 13. At the 64 angles of the table, with π to ten decimals, the polynomial is a fraction with a fixed
denominator, so the comparison with an entry is one of integers. -/

namespace Sys2Proof.Machine

/-! ### The sine and its Taylor polynomial -/

/-- The Taylor polynomial of the sine at 0, of degree 13. -/
noncomputable def sinePoly (x : ℝ) : ℝ :=
  x - x ^ 3 / 6 + x ^ 5 / 120 - x ^ 7 / 5040 + x ^ 9 / 362880 - x ^ 11 / 39916800 + x ^ 13 / 6227020800

/-- The odd terms of the exponential's sum on the imaginary axis are those of `sinePoly`. -/
theorem im_expSum_eq_sinePoly (x : ℝ) :
    (∑ m ∈ Finset.range 15, (x * Complex.I) ^ m / (m.factorial : ℂ)).im = sinePoly x := by
  have term (m : ℕ) : ((x * Complex.I) ^ m / (m.factorial : ℂ)).im = x ^ m / m.factorial * (Complex.I ^ m).im := by
    rw [mul_pow, mul_div_right_comm, ← Complex.ofReal_pow, ← Complex.ofReal_natCast, ← Complex.ofReal_div, Complex.im_ofReal_mul]
  rw [Complex.im_sum]
  simp only [term, Finset.sum_range_succ, Finset.sum_range_zero, pow_succ Complex.I, pow_zero, one_mul, Complex.I_mul_I, neg_mul,
    neg_neg, Complex.neg_im, Complex.one_im, Complex.I_im, Nat.factorial, sinePoly]
  push_cast
  ring

theorem abs_sin_sub_sinePoly_le {x : ℝ} (h0 : 0 ≤ x) (h1 : x ≤ 8 / 5) : |Real.sin x - sinePoly x| ≤ 2 / 10 ^ 9 := by
  have hnorm : ‖(x * Complex.I : ℂ)‖ = x := by simp [abs_of_nonneg h0]
  have hexp := Complex.exp_bound' (x := x * Complex.I) (n := 15) (by rw [hnorm]; norm_num; linarith)
  rw [hnorm] at hexp
  rw [← Complex.exp_ofReal_mul_I_im, ← im_expSum_eq_sinePoly, ← Complex.sub_im]
  calc _ ≤ x ^ 15 / (Nat.factorial 15) * 2 := (Complex.abs_im_le_norm _).trans hexp
    _ ≤ (8 / 5) ^ 15 / (Nat.factorial 15) * 2 := by gcongr
    _ ≤ 2 / 10 ^ 9 := by norm_num [Nat.factorial]

/-! ### The angles of the table -/

/-- The value that entry `i` rounds (R31). -/
noncomputable def exactEntry (i : ℕ) : ℝ := Real.sin (i * (Real.pi / 2) / 64) * 256

/-- The numerator of π / 128, over `romAngleDen`: π to ten decimals. -/
def romAngleNum : ℕ := 31415926536

def romAngleDen : ℕ := 128 * 10 ^ 10

/-- The angle of entry `i` in radians (`abs_sub_romAngle_le`). -/
noncomputable def romAngle (i : ℕ) : ℝ := i * romAngleNum / romAngleDen

/-- The numerator of `sinePoly` at the angle of entry `i`, over `romSineDen`. -/
def romSineNum (i : ℕ) : ℤ :=
  let u : ℤ := i * romAngleNum
  let d : ℤ := romAngleDen
  6227020800 * u * d ^ 12 - 1037836800 * u ^ 3 * d ^ 10 + 51891840 * u ^ 5 * d ^ 8 - 1235520 * u ^ 7 * d ^ 6 +
    17160 * u ^ 9 * d ^ 4 - 156 * u ^ 11 * d ^ 2 + u ^ 13

def romSineDen : ℕ := 6227020800 * romAngleDen ^ 13

theorem sinePoly_romAngle (i : ℕ) : sinePoly (romAngle i) = romSineNum i / romSineDen := by
  have hd : (romAngleDen : ℝ) ≠ 0 := by norm_num [romAngleDen]
  simp only [sinePoly, romAngle, romSineNum, romSineDen]
  push_cast
  field_simp
  ring

theorem abs_sub_romAngle_le {i : ℕ} (hi : i ≤ 64) : |i * (Real.pi / 2) / 64 - romAngle i| ≤ 1 / 10 ^ 9 := by
  have hi' : (i : ℝ) / 128 ≤ 1 := by
    rw [div_le_one₀ (by norm_num)]
    exact_mod_cast hi.trans (by norm_num)
  have hpi : |Real.pi - 31415926536 / 10 ^ 10| ≤ 1 / 10 ^ 10 :=
    abs_le.mpr ⟨by linarith [Real.pi_gt_d20], by linarith [Real.pi_lt_d20]⟩
  calc |i * (Real.pi / 2) / 64 - romAngle i| = |i / 128 * (Real.pi - 31415926536 / 10 ^ 10)| := by
        simp only [romAngle, romAngleNum, romAngleDen]
        push_cast
        ring_nf
    _ = i / 128 * |Real.pi - 31415926536 / 10 ^ 10| := by rw [abs_mul, abs_of_nonneg (by positivity)]
    _ ≤ 1 * (1 / 10 ^ 10) := by gcongr
    _ ≤ 1 / 10 ^ 9 := by norm_num

/-- Within a millionth: the polynomial and the decimals of π both stay well below it. -/
theorem abs_exactEntry_sub_le {i : ℕ} (hi : i ≤ 64) :
    |exactEntry i - romSineNum i / romSineDen * 256| ≤ 1 / 10 ^ 6 := by
  have hi' : (i : ℝ) ≤ 64 := by exact_mod_cast hi
  have hpoly : |Real.sin (romAngle i) - sinePoly (romAngle i)| ≤ 2 / 10 ^ 9 := by
    refine abs_sin_sub_sinePoly_le (by unfold romAngle; positivity) ?_
    norm_num [romAngle, romAngleNum, romAngleDen]
    linarith
  have hangle := (Real.abs_sin_sub_sin_le _ _).trans (abs_sub_romAngle_le hi)
  rw [← sinePoly_romAngle, exactEntry, ← sub_mul, abs_mul, abs_of_pos (by norm_num : (0 : ℝ) < 256)]
  linarith [abs_sub_le (Real.sin (i * (Real.pi / 2) / 64)) (Real.sin (romAngle i)) (sinePoly (romAngle i))]

/-! ### The comparison with the table -/

/-- `n` and `e` count millionths: `n` is nearer than `e` to the polynomial's value for entry `i`, with a millionth to spare. -/
def NearEntry (i : ℕ) (n e : ℤ) : Prop :=
  |n * romSineDen - 256 * 10 ^ 6 * romSineNum i| + romSineDen < e * romSineDen

theorem abs_sub_exactEntry_lt {i : ℕ} {n e : ℤ} {t b : ℝ} (hi : i ≤ 64) (h : NearEntry i n e) (ht : t * 10 ^ 6 = n)
    (hb : b * 10 ^ 6 = e) : |t - exactEntry i| < b := by
  have hden : (0 : ℝ) < romSineDen := by norm_num [romSineDen, romAngleDen]
  have hnum : |t * 10 ^ 6 * romSineDen - 256 * 10 ^ 6 * romSineNum i| + romSineDen < b * 10 ^ 6 * romSineDen := by
    rw [NearEntry] at h
    rw [ht, hb]
    exact_mod_cast h
  have hscale : t * 10 ^ 6 * romSineDen - 256 * 10 ^ 6 * romSineNum i =
      (t - romSineNum i / romSineDen * 256) * (10 ^ 6 * romSineDen) := by
    field_simp
  rw [hscale, abs_mul, abs_of_pos (by positivity : (0 : ℝ) < 10 ^ 6 * romSineDen)] at hnum
  have hpoly : |t - romSineNum i / romSineDen * 256| < b - 1 / 10 ^ 6 := by
    refine lt_of_mul_lt_mul_right ?_ (by positivity : (0 : ℝ) ≤ 10 ^ 6 * romSineDen)
    linarith
  have hexact := abs_exactEntry_sub_le hi
  rw [abs_sub_comm] at hexact
  linarith [abs_sub_le t (romSineNum i / romSineDen * 256) (exactEntry i)]

theorem nearEntry_sineTable : ∀ i : Fin 64, NearEntry i (10 ^ 6 * (sineTable[i]).toInt) 499300 ∧
    (i.val ≠ 26 → i.val ≠ 27 → NearEntry i (10 ^ 6 * (sineTable[i]).toInt) 490000) := by
  unfold NearEntry
  decide

theorem nearEntry_26 : NearEntry 26 152499000 500 := by
  unfold NearEntry
  decide

theorem nearEntry_27 : NearEntry 27 157499000 500 := by
  unfold NearEntry
  decide

/-- Settles O22: each entry, and each of the two near ties, is an integer comparison with the polynomial. -/
theorem romEntriesAreRoundedSines : Obligations.RomEntriesAreRoundedSines := by
  refine ⟨fun i => ⟨?_, fun h26 h27 => ?_, ?_⟩, ?_, ?_, by decide⟩
  · exact abs_sub_exactEntry_lt i.isLt.le (nearEntry_sineTable i).1 (by push_cast; ring) (by norm_num)
  · exact abs_sub_exactEntry_lt i.isLt.le ((nearEntry_sineTable i).2 h26 h27) (by push_cast; ring) (by norm_num)
  · revert i
    decide
  · rw [abs_sub_comm]
    exact abs_sub_exactEntry_lt (by norm_num) nearEntry_26 (by norm_num) (by norm_num)
  · rw [abs_sub_comm]
    exact abs_sub_exactEntry_lt (by norm_num) nearEntry_27 (by norm_num) (by norm_num)

end Sys2Proof.Machine

/-! PROOFS. The read port of the sine table (20_memory.md R40, R41): the fold mux picks the one word that SIN and COS read, and no other
command sees the table. -/

namespace Sys2Proof.Machine

open Sys2Proof.Claims

/-! ### The address of the one word -/

/-- R63, R101: the index of an operand's angle is its low six bits. -/
theorem indexOf_angleOperand_toNat (a : Word) : (indexOf (angleOperand a)).toNat = a.toNat % 64 := by
  simp only [indexOf, angleOperand, BitVec.extractLsb'_toNat, Nat.shiftRight_zero]
  omega

/-- R101, R106: a quarter turn moves the quadrant on and leaves the index. -/
theorem indexOf_phaseShift (angle : Angle) : indexOf (phaseShift angle) = indexOf angle := by
  refine BitVec.eq_of_toNat_eq ?_
  simp only [indexOf, phaseShift, BitVec.extractLsb'_toNat, Nat.shiftRight_zero]
  bv_omega

/-- R102: the fold mux gives `idx` or `63 - idx`. -/
theorem foldAddress_toNat_cases (angle : Angle) :
    (foldAddress angle).toNat = (indexOf angle).toNat ∨ (foldAddress angle).toNat = 63 - (indexOf angle).toNat := by
  unfold foldAddress
  split
  · right
    bv_omega
  · exact .inl rfl

/-- A read of the table is the entry of that number (R41). -/
theorem romRead_eq_getElem (rom : Rom) (i : RomIndex) : romRead rom i = rom[i.toFin] := rfl

/-- R103, R104: of the table the sine reads the word at the folded address only. -/
theorem sin8_congr {rom rom' : Rom} {angle : Angle} (h : rom'[(foldAddress angle).toFin] = rom[(foldAddress angle).toFin]) :
    sin8 rom' angle = sin8 rom angle := by
  simp only [sin8, romRead_eq_getElem, h]

/-- A command that answers the sine of an angle depends on one word, at the angle's index `n` or at `63 - n`. -/
theorem exists_address_of_resultOf_eq_sin8 {i : Instr} {angle : Angle} {n : Nat} (hn : (indexOf angle).toNat = n)
    (hi : ∀ (c : Config) (rom : Rom), resultOf c rom i = ⟨sext16 (sin8 rom angle), false, false⟩) :
    ∃ j : Fin 64, (j.val = n ∨ j.val = 63 - n) ∧ ∀ (s : State) (rom : Rom), rom[j] = s.rom[j] →
      ∃ c, answers i s c ∧ answers i { s with rom := rom } c := by
  refine ⟨(foldAddress angle).toFin, hn ▸ foldAddress_toNat_cases angle, fun s rom hword => ?_⟩
  refine ⟨resultOf s.config s.rom i, answers_iff.mpr rfl, answers_iff.mpr ?_⟩
  rw [hi, hi, sin8_congr hword]

/-! ### The commands that do not read the table -/

/-- R41: the result functions of the ops other than SIN and COS do not read the table. -/
theorem resultOf_rom_irrelevant {i : Instr} (hsin : i.op ≠ 0) (hcos : i.op ≠ 1) (c : Config) (rom rom' : Rom) :
    resultOf c rom' i = resultOf c rom i := by
  cases i with
  | sin a b => exact absurd rfl hsin
  | cos a b => exact absurd rfl hcos
  | atan2 a b | isqrt a b | mag a b | rsvd5 a b | rsvd6 a b | rsvd7 a b => rfl

/-- R41: the datapaths do not see the table. -/
theorem State.stepDatapath_withRom (s : State) (rom : Rom) (i : Instr) :
    State.stepDatapath { s with rom := rom } i = { s.stepDatapath i with rom := rom } := by
  cases i <;> rfl

/-- Settles O24: the fold mux gives the one address, which the quarter turn of COS does not move, and the other result functions and the
datapaths do not see the table. -/
theorem oneRomWordPerSineCommand : Obligations.OneRomWordPerSineCommand := by
  refine ⟨fun a b => ?_, fun a b => ?_, fun i s rom hsin hcos => ⟨_, exec_eq i s, ?_⟩⟩
  · exact exists_address_of_resultOf_eq_sin8 (indexOf_angleOperand_toNat a) fun _ _ => rfl
  · refine exists_address_of_resultOf_eq_sin8 (angle := phaseShift (angleOperand a)) ?_ fun _ _ => rfl
    rw [indexOf_phaseShift, indexOf_angleOperand_toNat]
  · rw [exec_eq, State.stepDatapath_withRom, resultOf_rom_irrelevant hsin hcos s.config s.rom rom]
    rfl

end Sys2Proof.Machine

/-! PROOFS. The encoding of commands (30_encoding.md R60 to R71): the fields of a command word, the assembler, the reserved ops, and the
bits that an operation ignores. -/

namespace Sys2Proof

open Claims

/-! ### The fields of a command word -/

@[simp] theorem Command.op_append (op : OpCode) (a b : Word) : Command.op (op ++ a ++ b) = op := by
  ext k hk
  have hb : ¬ 32 + k < 16 := by omega
  simp [Command.op, command_getLsbD, hb, BitVec.getLsbD_eq_getElem hk]

@[simp] theorem Command.a_append (op : OpCode) (a b : Word) : Command.a (op ++ a ++ b) = a := by
  ext k hk
  have ha : 16 + k < 32 := by omega
  simp [Command.a, command_getLsbD, ha, BitVec.getLsbD_eq_getElem hk]

@[simp] theorem Command.b_append (op : OpCode) (a b : Word) : Command.b (op ++ a ++ b) = b := by
  ext k hk
  simp [Command.b, command_getLsbD, hk]

/-- R60: the three fields are the whole word. -/
theorem Command.append_fields (c : Command) : c.op ++ c.a ++ c.b = c := by
  refine BitVec.eq_of_getLsbD_eq fun k hk => ?_
  rw [command_getLsbD]
  split_ifs with hb ha
  · simp [Command.b, hb]
  · simp [Command.a, show k - 16 < 16 by omega, show 16 + (k - 16) = k by omega]
  · simp [Command.op, show k - 32 < 3 by omega, show 32 + (k - 32) = k by omega]

/-- R60: 40 bits hold a command word whole. -/
theorem Command.toNat_mod (c : Command) : c.toNat % 2 ^ 40 = c.toNat := Nat.mod_eq_of_lt (c.isLt.trans (by decide))

theorem decode_encode (i : Instr) : decode (encode i) = i := by
  simp only [decode, encode, Command.op_append, Command.a_append, Command.b_append, Machine.decodeFields_fields]

theorem encode_decode (c : Command) : encode (decode c) = c := by
  simp only [decode, encode, Machine.op_decodeFields, Machine.a_decodeFields, Machine.b_decodeFields, Command.append_fields]

/-- Settles O1: the fields are read back from their word, and together they are the whole word. -/
theorem decodeAndEncodeAreInverse : Obligations.DecodeAndEncodeAreInverse :=
  ⟨decode_encode, encode_decode⟩

/-- R65: the mask keeps the OP field. -/
theorem Command.op_masked (c : Command) : Command.op (c &&& 0x700000000) = c.op := by
  have mask : BitVec.extractLsb' 32 3 (0x700000000 : Command) = BitVec.allOnes 3 := by decide
  rw [Command.op, Command.op, BitVec.extractLsb'_and, mask, BitVec.and_allOnes]

/-- R65: a word's command is the one that the OP field of its masked word selects, with A and B as they stand in the word. -/
theorem decode_of_masked {c pattern : Command} (h : c &&& 0x700000000 = pattern) :
    decode c = decodeFields pattern.op c.a c.b := by
  rw [← h, Command.op_masked, decode]

/-- Settles O2: each match value has its own OP field, and the mask keeps that field. -/
theorem opFieldSelectsCommand : Obligations.OpFieldSelectsCommand := fun _ =>
  ⟨Machine.op_decodeFields _ _ _, decode_of_masked, decode_of_masked, decode_of_masked, decode_of_masked, decode_of_masked,
    decode_of_masked, decode_of_masked, decode_of_masked⟩

/-- Settles O3: each line assembles to its command and each command has its word by evaluation; the way back is that of every command. -/
theorem workedEncodingsAgree : Obligations.WorkedEncodingsAgree := by
  intro p hp
  obtain ⟨hline, hword⟩ : p.1.assemble = some (.issue p.2.1) ∧ encode p.2.1 = p.2.2 := by
    revert p
    decide
  exact ⟨hline, hword, hword ▸ decode_encode p.2.1⟩

/-! ### The assembler -/

theorem angleLiteral_iff (l : Literal) : angleLiteral l = true ↔ within 0 255 l := decide_eq_true_iff

theorem unsignedLiteral_iff (l : Literal) : unsignedLiteral l = true ↔ within 0 65535 l := decide_eq_true_iff

theorem reservedLiteral_iff (l : Literal) : reservedLiteral l = true ↔ within 5 7 l := decide_eq_true_iff

theorem signedLiteral_iff (l : Literal) : signedLiteral l = true ↔ signedOperand l := by
  cases l <;> exact decide_eq_true_iff

/-- R69: the field of a literal, decimal or `0x`. -/
theorem Literal.word_eq_field (l : Literal) : l.word = field l := by
  cases l with
  | decimal n => rfl
  | hex n => exact BitVec.ofInt_natCast 16 n

/-- R69: the angle literals leave `A[15:8]` at 0. -/
theorem Literal.word_high_of_angle {l : Literal} (h : within 0 255 l) : l.word.extractLsb' 8 8 = 0 := by
  obtain ⟨hlo, hhi⟩ := h
  have hlt : l.word.toNat < 256 := by
    rw [Literal.word, BitVec.toNat_ofInt]
    omega
  refine BitVec.eq_of_toNat_eq ?_
  rw [BitVec.extractLsb'_toNat, Nat.shiftRight_eq_div_pow, Nat.div_eq_of_lt hlt]
  rfl

/-- R64: with both operands 0 a command of any op has its ignored fields 0. -/
theorem wellFormed_decodeFields_zero (op : OpCode) : (decodeFields op 0 0).wellFormed = true := by
  revert op
  decide

/-- R69: a line that assembles is well-formed. -/
theorem TraceLine.wellFormed_of_assemble {t : TraceLine} {act : HostAction} (h : t.assemble = some act) : t.wellFormed = true := by
  by_contra hw
  rw [(TraceLine.assemble_eq_none t).mpr (by simpa using hw)] at h
  cases h

/-- R64, R69: the assembler writes 0 in every ignored field. -/
theorem Instr.wellFormed_of_assemble {t : TraceLine} {i : Instr} (h : t.assemble = some (.issue i)) : i.wellFormed = true := by
  have hw := TraceLine.wellFormed_of_assemble h
  unfold TraceLine.assemble at h
  rw [if_pos hw] at h
  cases t with
  | sin l | cos l =>
    cases h
    simpa [Instr.wellFormed] using Literal.word_high_of_angle ((angleLiteral_iff l).mp hw)
  | isqrt l => cases h; simp [Instr.wellFormed]
  | rsvd l => cases h; exact wellFormed_decodeFields_zero _
  | atan2 l m | mag l m => cases h; rfl
  | wait => cases h

/-- R69: the assembler refuses a line exactly if the ranges of its literals, given as `p`, do not hold. -/
theorem TraceLine.assemble_eq_none_iff {t : TraceLine} {p : Prop} (h : t.wellFormed = true ↔ p) : t.assemble = none ↔ ¬ p := by
  rw [TraceLine.assemble_eq_none, ← h, Bool.not_eq_true]

theorem signedLiterals_iff (l m : Literal) : (signedLiteral l && signedLiteral m) = true ↔ signedOperand l ∧ signedOperand m := by
  rw [Bool.and_eq_true, signedLiteral_iff, signedLiteral_iff]

/-- R69: a two's complement word is in the range of a decimal, and a word in that of a `0x` operand. -/
theorem signedOperand_toInt (w : Word) : signedOperand (.decimal w.toInt) := by
  have := BitVec.le_toInt w
  have := BitVec.toInt_lt (x := w)
  constructor <;> omega

theorem signedOperand_toNat (w : Word) : signedOperand (.hex w.toNat) := Nat.le_of_lt_succ w.isLt

theorem TraceLine.assemble_atan2 {l m : Literal} (hl : signedOperand l) (hm : signedOperand m) :
    (TraceLine.atan2 l m).assemble = some (.issue (.atan2 (field l) (field m))) := by
  rw [← l.word_eq_field, ← m.word_eq_field]
  exact if_pos ((signedLiterals_iff l m).mpr ⟨hl, hm⟩)

theorem TraceLine.assemble_mag {l m : Literal} (hl : signedOperand l) (hm : signedOperand m) :
    (TraceLine.mag l m).assemble = some (.issue (.mag (field l) (field m))) := by
  rw [← l.word_eq_field, ← m.word_eq_field]
  exact if_pos ((signedLiterals_iff l m).mpr ⟨hl, hm⟩)

theorem TraceLine.assemble_sin {l : Literal} (h : within 0 255 l) :
    (TraceLine.sin l).assemble = some (.issue (.sin (field l) 0)) := by
  rw [← l.word_eq_field]
  exact if_pos ((angleLiteral_iff l).mpr h)

theorem TraceLine.assemble_cos {l : Literal} (h : within 0 255 l) :
    (TraceLine.cos l).assemble = some (.issue (.cos (field l) 0)) := by
  rw [← l.word_eq_field]
  exact if_pos ((angleLiteral_iff l).mpr h)

theorem TraceLine.assemble_isqrt {l : Literal} (h : within 0 65535 l) :
    (TraceLine.isqrt l).assemble = some (.issue (.isqrt (field l) 0)) := by
  rw [← l.word_eq_field]
  exact if_pos ((unsignedLiteral_iff l).mpr h)

theorem TraceLine.assemble_rsvd {l : Literal} (h : within 5 7 l) :
    (TraceLine.rsvd l).assemble = some (.issue (decodeFields (BitVec.ofInt 3 l.value) 0 0)) :=
  if_pos ((reservedLiteral_iff l).mpr h)

/-- R69: the op of a reserved line is its literal. -/
theorem toNat_ofInt_of_reserved {l : Literal} (h : within 5 7 l) : ((BitVec.ofInt 3 l.value).toNat : Int) = l.value := by
  obtain ⟨hlo, hhi⟩ := h
  rw [BitVec.toNat_ofInt]
  omega

/-- Settles O4: a line's check is the range of R69 for its form, and a line that passes has the fields of its literals. -/
theorem assembledCommandsAreWellFormed : Obligations.AssembledCommandsAreWellFormed := by
  refine ⟨fun _ _ => Instr.wellFormed_of_assemble, fun l => ?_, fun l m => ?_, fun l => ?_, fun l m hl hm => ?_, fun w => ?_, rfl⟩
  · exact ⟨TraceLine.assemble_eq_none_iff (angleLiteral_iff l), TraceLine.assemble_eq_none_iff (angleLiteral_iff l),
      TraceLine.assemble_eq_none_iff (unsignedLiteral_iff l), TraceLine.assemble_eq_none_iff (reservedLiteral_iff l)⟩
  · exact ⟨TraceLine.assemble_eq_none_iff (signedLiterals_iff l m), TraceLine.assemble_eq_none_iff (signedLiterals_iff l m)⟩
  · exact ⟨fun h => ⟨TraceLine.assemble_sin h, TraceLine.assemble_cos h⟩, TraceLine.assemble_isqrt, fun h =>
      ⟨_, TraceLine.assemble_rsvd h, by rw [Machine.op_decodeFields, toNat_ofInt_of_reserved h], Machine.a_decodeFields _ _ _,
        Machine.b_decodeFields _ _ _⟩⟩
  · exact ⟨TraceLine.assemble_atan2 hl hm, TraceLine.assemble_mag hl hm⟩
  · rw [TraceLine.assemble_atan2 (signedOperand_toInt w) (signedOperand_toNat w)]
    simp only [field, BitVec.ofInt_toInt, BitVec.ofNat_toNat, BitVec.setWidth_eq]

end Sys2Proof

namespace Sys2Proof.Machine

open Sys2Proof.Claims

/-! ### The placed command -/

/-- Log 5: the loader places the whole word, behind one idle cycle of the host. -/
theorem State.withFetchWord_toNat (s : State) (c : Command) :
    s.withFetchWord 40 c.toNat = { s.inFlight c with host := HostCycle.idle :: s.host } := by
  rw [State.withFetchWord, Command.toNat_mod, BitVec.ofNat_toNat, BitVec.setWidth_eq]

/-- Log 11: the table's reader reads every command word, whole. -/
theorem decodeTableWord_toNat (c : Command) : decodeTableWord 40 c.toNat = some (decode c) := by
  rw [decodeTableWord, Command.toNat_mod, decodeNumber, if_pos c.isLt, BitVec.ofNat_toNat, BitVec.setWidth_eq]
  rfl

/-- Settles O6: the placed command is latched whole and its completion edge is next. -/
theorem placedCommandRunsNext : Obligations.PlacedCommandRunsNext := by
  refine fun s c => ⟨decodeTableWord_toNat c, ?_⟩
  rw [State.withFetchWord_toNat, step_complete _ rfl rfl rfl rfl]
  rfl

/-! ### The ignored bits -/

/-- R63, R64: SIN reads the angle `A[7:0]` only. -/
theorem exec_sin_congr {a a' : Word} (h : angleOperand a = angleOperand a') (b b' : Word) (s : State) :
    exec (.sin a b) s = exec (.sin a' b') s := by
  simp only [exec, execSin, resultSin, h]

/-- R63, R64: COS reads the angle `A[7:0]` only. -/
theorem exec_cos_congr {a a' : Word} (h : angleOperand a = angleOperand a') (b b' : Word) (s : State) :
    exec (.cos a b) s = exec (.cos a' b') s := by
  simp only [exec, execCos, resultCos, h]

/-- Settles O39: no meaning reads an ignored bit, and a latency depends on the op alone. -/
theorem ignoredBitsHaveNoEffect : Obligations.IgnoredBitsHaveNoEffect := fun _ _ _ _ _ _ =>
  ⟨fun h => ⟨exec_sin_congr h _ _ _, exec_cos_congr h _ _ _, rfl, rfl⟩, rfl, rfl⟩

/-! ### A command's flight: acceptance, countdown, completion -/

theorem runFor_add {m : Nat} {s t : State} (h : runFor m s = .next t) (n : Nat) : runFor (m + n) s = runFor n t := by
  induction m generalizing s with
  | zero => cases h; rw [Nat.zero_add]
  | succ m ih =>
    obtain ⟨u, hu, hrun⟩ := exists_step_of_runFor_succ h
    rw [Nat.add_right_comm, runFor_succ _ hu, ih hrun]

/-- The last edge of a run is a step from where the edges before it end. -/
theorem runFor_succ_last {n : Nat} {s t u : State} (h : runFor n s = .next t) (hu : step t = .next u) :
    runFor (n + 1) s = .next u := by
  rw [runFor_add h, runFor_succ 0 hu, runFor]

theorem input_of_host_eq_drop {s t : State} {k : Nat} (h : t.host = s.host.drop k) : t.input = s.host.getD k HostCycle.idle := by
  rw [input_eq_getD, h]
  simp [List.getD_eq_getElem?_getD]

/-- The rest of a run without reset, after its first edge, is one too. -/
theorem State.noResetFor.tail {s t : State} {n : Nat} (h : s.noResetFor (n + 1)) (ht : t.host = s.host.tail) : t.noResetFor n := by
  intro k hk
  rw [ht, ← State.tick_host, tick_host_getD]
  exact h (k + 1) (by omega)

/-- `t` is the unit `s` with the same command in flight, after `k` countdown edges (70_reset_and_hazards.md R223): what those edges keep. A
command without a work register keeps every work register. -/
structure CountedDown (s : State) (k : Nat) (t : State) : Prop where
  booted : t.booted = s.booted
  busy : t.busy = s.busy
  cnt : t.cnt.toNat + k = s.cnt.toNat
  latched : t.latched = s.latched
  shown : t.shown = s.shown
  rom : t.rom = s.rom
  config : t.config = s.config
  host : t.host = s.host.drop k
  work : (∀ u : State, u.stepDatapath s.latched = u) → t.divider = s.divider ∧ t.rooter = s.rooter

theorem CountedDown.refl (s : State) : CountedDown s 0 s where
  booted := rfl
  busy := rfl
  cnt := rfl
  latched := rfl
  shown := rfl
  rom := rfl
  config := rfl
  host := rfl
  work _ := ⟨rfl, rfl⟩

theorem CountedDown.countdownEdge {s t : State} {k : Nat} (h : CountedDown s k t) (hcnt : t.cnt ≠ 0) :
    CountedDown s (k + 1) t.tick.countdownEdge where
  booted := by simp [h.booted]
  busy := by simp [h.busy]
  cnt := by
    have := h.cnt
    rw [State.countdownEdge_cnt, State.tick_cnt]
    bv_omega
  latched := by simpa [State.countdownEdge, State.latched] using h.latched
  shown := by simp [h.shown]
  rom := by simp [h.rom]
  config := by simp [h.config]
  host := by simp [h.host]
  work hw := by simpa [h.latched, hw] using h.work hw

/-- R223: while `cnt` is not 0, an edge without reset counts down and the command stays in flight. -/
theorem exists_countedDown {s : State} {n : Nat} (hb : s.booted = true) (hbusy : s.busy = true) (hr : s.noResetFor n) :
    ∀ k, k ≤ n → k ≤ s.cnt.toNat → ∃ t, runFor k s = .next t ∧ CountedDown s k t := by
  intro k
  induction k with
  | zero => exact fun _ _ => ⟨s, rfl, .refl s⟩
  | succ k ih =>
    intro hkn hkc
    obtain ⟨t, ht, hd⟩ := ih (by omega) (by omega)
    have hcnt : t.cnt ≠ 0 := by
      have := hd.cnt
      bv_omega
    have hrst : t.input.rst = false := by
      rw [input_of_host_eq_drop hd.host]
      exact hr k hkn
    have hstep := step_countdown t (hd.booted.trans hb) hrst (hd.busy.trans hbusy) hcnt
    exact ⟨_, runFor_succ_last ht hstep, hd.countdownEdge hcnt⟩

/-- R227, R230: a command in flight completes `cnt + 1` edges later, from the state that its countdown has led to. -/
theorem exists_runFor_completion {s : State} (hb : s.booted = true) (hbusy : s.busy = true) (hr : s.noResetFor (s.cnt.toNat + 1)) :
    ∃ t, CountedDown s s.cnt.toNat t ∧ runFor (s.cnt.toNat + 1) s =
      .next ((t.tick.stepDatapath s.latched).complete (resultOf s.config s.rom s.latched)) := by
  obtain ⟨t, ht, hd⟩ := exists_countedDown hb hbusy hr s.cnt.toNat (by omega) le_rfl
  have hcnt : t.cnt = 0 := BitVec.eq_of_toNat_eq (by simpa using hd.cnt)
  have hrst : t.input.rst = false := by
    rw [input_of_host_eq_drop hd.host]
    exact hr _ (by omega)
  have hstep := step_complete t (hd.booted.trans hb) hrst (hd.busy.trans hbusy) hcnt
  rw [exec_eq, hd.latched, State.tick_config, State.tick_rom, hd.config, hd.rom] at hstep
  exact ⟨t, hd, runFor_succ_last ht hstep⟩

/-- R222: acceptance leaves `LAT(op)` edges to the completion edge, that edge included. -/
theorem State.acceptEdge_edges (s : State) :
    (s.tick.acceptEdge s.input).cnt.toNat + 1 = (latencyOf s.config s.input.cmdOp).edges := by
  have := Latency.edges_bounds (latencyOf s.config s.input.cmdOp)
  rw [State.acceptEdge_cnt, countLoad_toNat, State.tick_config]
  omega

/-- R222, R223: an accepted command is in flight up to its completion edge. -/
theorem exists_inFlight_of_accepts {s : State} {n k : Nat} (hb : s.booted = true) (ha : accepts s) (hr : s.noResetFor (n + 1))
    (hkn : k ≤ n) (hkl : k < (latencyOf s.config s.input.cmdOp).edges) :
    ∃ t, runFor (k + 1) s = .next t ∧ CountedDown (s.tick.acceptEdge s.input) k t := by
  obtain ⟨hrst, hidle, hvalid⟩ := ha
  rw [runFor_succ k (step_accept s hb hrst hidle hvalid)]
  have hedges := s.acceptEdge_edges
  exact exists_countedDown (s := s.tick.acceptEdge s.input) hb rfl (hr.tail rfl) k hkn (by omega)

/-- R227, R230: an accepted command completes `LAT(op)` edges after its acceptance edge. -/
theorem exists_completion_of_accepts {s : State} (hb : s.booted = true) (ha : accepts s)
    (hr : s.noResetFor ((latencyOf s.config s.input.cmdOp).edges + 1)) :
    ∃ t, CountedDown (s.tick.acceptEdge s.input) (s.tick.acceptEdge s.input).cnt.toNat t ∧
      runFor ((latencyOf s.config s.input.cmdOp).edges + 1) s = .next
        ((t.tick.stepDatapath (s.tick.acceptEdge s.input).latched).complete
          (resultOf s.config s.rom (s.tick.acceptEdge s.input).latched)) := by
  obtain ⟨hrst, hidle, hvalid⟩ := ha
  rw [runFor_succ _ (step_accept s hb hrst hidle hvalid)]
  rw [← s.acceptEdge_edges] at hr ⊢
  exact exists_runFor_completion (s := s.tick.acceptEdge s.input) hb rfl (hr.tail rfl)

/-! ### The reserved ops -/

theorem reserved_cases {op : OpCode} (h : op ∈ [5, 6, 7]) : op = 5 ∨ op = 6 ∨ op = 7 := by
  simpa using h

theorem latencyOf_reserved {op : OpCode} (h : op ∈ [5, 6, 7]) (c : Config) : latencyOf c op = c.latRsvd := by
  obtain rfl | rfl | rfl := reserved_cases h <;> rfl

theorem resultOf_reserved {op : OpCode} (h : op ∈ [5, 6, 7]) (a b : Word) (c : Config) (rom : Rom) :
    resultOf c rom (decodeFields op a b) = resultReserved := by
  obtain rfl | rfl | rfl := reserved_cases h <;> rfl

/-- R66: a reserved op has no work register. -/
theorem State.stepDatapath_reserved {op : OpCode} (h : op ∈ [5, 6, 7]) (a b : Word) (s : State) :
    s.stepDatapath (decodeFields op a b) = s := by
  obtain rfl | rfl | rfl := reserved_cases h <;> rfl

/-- Log 18: accepting a reserved op leaves the accumulator. -/
theorem acceptRooter_reserved {op : OpCode} (h : op ∈ [5, 6, 7]) (w : Rooter) : acceptRooter op w = w := by
  obtain rfl | rfl | rfl := reserved_cases h <;> rfl

/-- Settles O34: a reserved command flies as every command does, and it has no work register to step. -/
theorem reservedOpsCompleteWithError : Obligations.ReservedOpsCompleteWithError := by
  refine ⟨fun _ _ _ => ⟨rfl, rfl, rfl⟩, fun s hb ha hop hr => ?_⟩
  have hwork : ∀ u : State, u.stepDatapath (s.tick.acceptEdge s.input).latched = u := State.stepDatapath_reserved hop _ _
  have hres : resultOf s.config s.rom (s.tick.acceptEdge s.input).latched = resultReserved := resultOf_reserved hop _ _ _ _
  rw [← latencyOf_reserved hop s.config] at hr ⊢
  constructor
  · intro k hk hle
    obtain ⟨k, rfl⟩ := Nat.exists_eq_add_of_le' hk
    obtain ⟨t, ht, hd⟩ := exists_inFlight_of_accepts hb ha hr (Nat.le_of_succ_le hle) hle
    exact ⟨t, ht, hd.busy⟩
  · obtain ⟨t, hd, ht⟩ := exists_completion_of_accepts hb ha hr
    obtain ⟨hdivider, hrooter⟩ := hd.work hwork
    rw [hwork, hres] at ht
    exact ⟨_, ht, rfl, rfl, rfl, rfl, rfl, hdivider, hrooter.trans (acceptRooter_reserved hop _), hd.rom, hd.config⟩

end Sys2Proof.Machine

/-! PROOFS. SIN and COS (40_sincos.md): the folded table as R104's four cases, what the two commands write, the identities of the table, and
its error against the exact sine. -/

namespace Sys2Proof.Machine

open Sys2Proof.Claims

/-! ### The fields of an angle -/

theorem angleOperand_toNat (a : Word) : (angleOperand a).toNat = a.toNat % 256 := by
  simp only [angleOperand, BitVec.extractLsb'_toNat, Nat.shiftRight_zero]

theorem angleOperand_congr {a a' : Word} (h : a.toNat % 256 = a'.toNat % 256) : angleOperand a = angleOperand a' :=
  BitVec.eq_of_toNat_eq (by rw [angleOperand_toNat, angleOperand_toNat, h])

theorem phaseShift_toNat (angle : Angle) : (phaseShift angle).toNat = (angle.toNat + 64) % 256 := BitVec.toNat_add angle 64

theorem quadrant_toNat (angle : Angle) : (quadrant angle).toNat = angle.toNat >>> 6 := by
  have := angle.isLt
  simp only [quadrant, BitVec.extractLsb'_toNat, Nat.shiftRight_eq_div_pow]
  omega

theorem indexOf_toNat (angle : Angle) : (indexOf angle).toNat = angle.toNat &&& 63 := by
  simp only [indexOf, BitVec.extractLsb'_toNat, Nat.shiftRight_zero]
  exact (Nat.and_two_pow_sub_one_eq_mod angle.toNat 6).symm

/-- R101: a quadrant is one of four. -/
theorem quadrant_cases (q : BitVec 2) : q = 0 ∨ q = 1 ∨ q = 2 ∨ q = 3 := by
  revert q
  decide

/-- R101, R106: a quarter turn moves the quadrant on by one. -/
theorem quadrant_phaseShift (angle : Angle) : quadrant (phaseShift angle) = quadrant angle + 1 := by
  have hq := quadrant_toNat angle
  have hq' := quadrant_toNat (phaseShift angle)
  rw [phaseShift_toNat] at hq'
  bv_omega

/-- R102: a quarter turn takes the fold mux to the other end of the table. -/
theorem foldAddress_phaseShift (angle : Angle) : foldAddress (phaseShift angle) = 63 - foldAddress angle := by
  unfold foldAddress
  rw [quadrant_phaseShift, indexOf_phaseShift]
  obtain hq | hq | hq | hq := quadrant_cases (quadrant angle) <;> rw [hq] <;> simp

/-- R102: the fold mux in numbers: the complement of an index does not wrap. -/
theorem foldAddress_toNat (angle : Angle) : (foldAddress angle).toNat =
    if (quadrant angle).getLsbD 0 then 63 - (indexOf angle).toNat else (indexOf angle).toNat := by
  unfold foldAddress
  split
  · bv_omega
  · rfl

/-! ### The folded sine -/

/-- R41: the word at a ROM address is the rule's table entry of that number. -/
theorem s16_romRead (rom : Rom) (i : RomIndex) : s16 (romRead rom i) = romAt rom i.toNat := by
  have hi : i.toNat < rom.toList.length := by simpa using i.isLt
  rw [romAt, List.getD_eq_getElem _ _ hi]
  rfl

/-- R104: the fold mux and the sign stage are SG's four cases. -/
theorem sin8_eq_claims (rom : Rom) (angle : Angle) : sin8 rom angle = Claims.sin8 rom angle.toNat := by
  simp only [sin8, Claims.sin8, s16_romRead, foldAddress_toNat, ← quadrant_toNat, ← indexOf_toNat]
  obtain hq | hq | hq | hq := quadrant_cases (quadrant angle) <;> rw [hq] <;> rfl

theorem sin8_phaseShift_twice (rom : Rom) (angle : Angle) : sin8 rom (phaseShift (phaseShift angle)) = -sin8 rom angle := by
  simp only [sin8, foldAddress_phaseShift, quadrant_phaseShift, sub_sub_cancel]
  obtain hq | hq | hq | hq := quadrant_cases (quadrant angle) <;> simp [hq]

/-- R103: half a turn on, the same word is read and the sign stage negates. -/
theorem sin8_add_half (rom : Rom) (angle : Angle) : sin8 rom (angle + 128) = -sin8 rom angle := by
  have hhalf : angle + 128 = phaseShift (phaseShift angle) := (add_assoc angle 64 64).symm
  rw [hhalf, sin8_phaseShift_twice]

theorem romAt_fin (rom : Rom) (i : Fin 64) : romAt rom i = (rom[i]).toInt := (s16_romRead rom (BitVec.ofFin i)).symm

/-- R104, quadrant 0: the sine is the entry of the angle. -/
theorem sin8_of_rising (rom : Rom) {angle : Angle} {i : Fin 64} (h : angle.toNat = i) : sin8 rom angle = (rom[i]).toInt := by
  have hq : angle.toNat >>> 6 = 0 := by rw [Nat.shiftRight_eq_div_pow]; omega
  have hidx : angle.toNat &&& 63 = i := by rw [Nat.and_two_pow_sub_one_eq_mod angle.toNat 6]; omega
  simp only [sin8_eq_claims, Claims.sin8, hq, hidx, romAt_fin]

/-- R104, quadrant 1: the table is read backwards, from entry 63 at angle 64 to entry 0 at angle 127. -/
theorem sin8_of_falling (rom : Rom) {angle : Angle} {i : Fin 64} (h : angle.toNat = 127 - i) : sin8 rom angle = (rom[i]).toInt := by
  have hq : angle.toNat >>> 6 = 1 := by rw [Nat.shiftRight_eq_div_pow]; omega
  have hidx : 63 - (angle.toNat &&& 63) = i := by rw [Nat.and_two_pow_sub_one_eq_mod angle.toNat 6]; omega
  simp only [sin8_eq_claims, Claims.sin8, hq, hidx, romAt_fin]

/-- Settles O20: half a turn turns the sign stage over, and quadrant 1 reads backwards what quadrant 0 reads. -/
theorem foldedSineIdentities : Obligations.FoldedSineIdentities := by
  refine ⟨sin8_add_half, by decide, fun rom i hi => ?_⟩
  obtain ⟨j, hj⟩ : ∃ j : Fin 64, j.val = 63 - i := ⟨⟨63 - i, by omega⟩, rfl⟩
  have hfalling : (BitVec.ofNat 8 (64 + i)).toNat = 127 - j := by
    rw [BitVec.toNat_ofNat]
    omega
  have hrising : (BitVec.ofNat 8 (63 - i)).toNat = j := by
    rw [BitVec.toNat_ofNat]
    omega
  rw [sin8_of_falling rom hfalling, sin8_of_rising rom hrising]

/-! ### What the two commands write -/

/-- R105: SIN, on the rule's own sine. -/
theorem resultSin_eq (rom : Rom) (a b : Word) :
    resultSin rom a b = ⟨BitVec.ofInt 16 (Claims.sin8 rom (a.toNat % 256)), false, false⟩ := by
  rw [resultSin, sin8_eq_claims, angleOperand_toNat, sext16]

/-- R106: COS, on the rule's own sine at the phase. -/
theorem resultCos_eq (rom : Rom) (a b : Word) :
    resultCos rom a b = ⟨BitVec.ofInt 16 (Claims.sin8 rom ((a.toNat % 256 + 64) % 256)), false, false⟩ := by
  rw [resultCos, sin8_eq_claims, phaseShift_toNat, angleOperand_toNat, sext16]

/-- Settles O17: the result function is the rule's, and the corner cases are entries of the table at evaluated angles. -/
theorem sinWritesTableSine : Obligations.SinWritesTableSine := by
  refine ⟨fun a b s => ?_, fun _ _ _ => ⟨rfl, rfl⟩, fun s hrom b => ⟨fun p hp => ?_, ?_⟩,
    fun a a' b b' s h => exec_sin_congr (angleOperand_congr h) b b' s⟩
  · rw [exec_eq, resultOf, resultSin_eq]
    rfl
  · rw [answers_iff, resultOf, resultSin, hrom]
    revert p
    decide
  · have hdecode : decode 0x000200000 = .sin 32 0 := by decide
    rw [answers_iff, hdecode, resultOf, hrom]
    decide

/-- Settles O18: as SIN, with the phase a quarter turn on. -/
theorem cosWritesShiftedTableSine : Obligations.CosWritesShiftedTableSine := by
  refine ⟨fun a b s => ?_, fun _ _ _ => ⟨rfl, rfl⟩, fun s hrom b => ⟨fun p hp => ?_, ?_⟩,
    fun a a' b b' s h => exec_cos_congr (angleOperand_congr h) b b' s⟩
  · rw [exec_eq, resultOf, resultCos_eq]
    rfl
  · rw [answers_iff, resultOf, resultCos, hrom]
    revert p
    decide
  · have hdecode : decode 0x100C00000 = .cos 192 0 := by decide
    rw [answers_iff, hdecode, resultOf, hrom]
    decide

/-- Settles O19: the two result functions agree on the phase. -/
theorem cosIsSinAQuarterTurnOn : Obligations.CosIsSinAQuarterTurnOn := by
  intro a a' b b' s h
  have hresult : resultCos s.rom a b = resultSin s.rom a' b' := by rw [resultCos_eq, resultSin_eq, h]
  rw [exec_eq, exec_eq, resultOf, resultOf, hresult]
  rfl

/-- R111, R66: SIN, COS and the reserved ops have no work register to step. -/
theorem State.stepDatapath_eq_self {i : Instr} (hatan2 : i.op ≠ 2) (hisqrt : i.op ≠ 3) (hmag : i.op ≠ 4) (s : State) :
    s.stepDatapath i = s := by
  cases i with
  | atan2 a b => exact absurd rfl hatan2
  | isqrt a b => exact absurd rfl hisqrt
  | mag a b => exact absurd rfl hmag
  | sin a b | cos a b | rsvd5 a b | rsvd6 a b | rsvd7 a b => rfl

/-- Settles O36: such a command is its completion's writes alone. -/
theorem frameOfOpsWithoutWorkRegisters : Obligations.FrameOfOpsWithoutWorkRegisters := by
  intro i s t hatan2 hisqrt hmag h
  rw [exec_eq, State.stepDatapath_eq_self hatan2 hisqrt hmag] at h
  cases h
  exact ⟨⟨rfl, rfl, rfl, rfl, rfl, rfl, rfl, rfl⟩, fun _ => rfl, rfl, rfl, rfl⟩

/-! ### The sum of the squares -/

/-- R103: the sign stage does not change the square. -/
theorem sin8_sq (rom : Rom) (angle : Angle) : sin8 rom angle ^ 2 = s16 (romRead rom (foldAddress angle)) ^ 2 := by
  simp only [sin8]
  split
  · exact neg_sq _
  · rfl

/-- R109, at the table: an entry and its mirror image. -/
theorem sineTable_square_sum (i : RomIndex) :
    let sum := s16 (romRead sineTable i) ^ 2 + s16 (romRead sineTable (63 - i)) ^ 2
    63809 ≤ sum ∧ sum ≤ 65572 ∧ (sum = 65572 ↔ i ∈ [1, 62]) ∧ (sum = 63809 ↔ i ∈ [30, 33]) := by
  revert i
  decide

/-- Settles O21: in every quadrant the sum is that of an entry and its mirror image, so the ends are reached at the angles that fold to the
entries that reach them. -/
theorem squareSumStaysInMeasuredRange : Obligations.SquareSumStaysInMeasuredRange := by
  intro a
  have hmax : a ∈ [1, 62, 65, 126, 129, 190, 193, 254] ↔ foldAddress a ∈ [1, 62] := by
    revert a
    decide
  have hmin : a ∈ [30, 33, 94, 97, 158, 161, 222, 225] ↔ foldAddress a ∈ [30, 33] := by
    revert a
    decide
  rw [hmax, hmin, sin8_sq, sin8_sq, ← phaseShift, foldAddress_phaseShift]
  exact sineTable_square_sum (foldAddress a)

/-! ### The error against the exact sine -/

/-- The value that the sine of an angle approximates (R110). -/
noncomputable def exactSine (angle : Angle) : ℝ := Real.sin (angle.toNat * (2 * Real.pi) / 256) * 256

/-- The error of SIN at an angle (R110). -/
noncomputable def sineError (angle : Angle) : ℝ := |(sin8 sineTable angle : ℝ) - exactSine angle|

theorem exactSine_of_rising {angle : Angle} {i : ℕ} (h : angle.toNat = i) : exactSine angle = exactEntry i := by
  rw [exactSine, exactEntry, h]
  ring_nf

/-- The exact curve falls from angle 64, one step before the table does (R108 (iii)). -/
theorem exactSine_of_falling {angle : Angle} {i : ℕ} (h : angle.toNat = 128 - i) (hi : i ≤ 128) : exactSine angle = exactEntry i := by
  rw [exactSine, exactEntry, h, ← Real.sin_pi_sub, Nat.cast_sub hi]
  congr 2
  push_cast
  ring

theorem exactSine_add_half (angle : Angle) : exactSine (angle + 128) = -exactSine angle := by
  have hturn : (angle + 128).toNat = angle.toNat + 128 ∨ (angle + 128).toNat + 128 = angle.toNat := by
    bv_omega
  rw [exactSine, exactSine, ← neg_mul]
  obtain h | h := hturn
  · rw [← Real.sin_add_pi, h]
    push_cast
    ring_nf
  · rw [← Real.sin_sub_pi, ← h]
    push_cast
    ring_nf

/-- R108 (i): both sines turn over, so the error stays. -/
theorem sineError_add_half (angle : Angle) : sineError (angle + 128) = sineError angle := by
  rw [sineError, sineError, sin8_add_half, exactSine_add_half, Int.cast_neg, neg_sub_neg, abs_sub_comm]

/-- Of an angle and its opposite one lies in quadrants 0 and 1, and the errors are the same. -/
theorem exists_upper_half (angle : Angle) : ∃ upper : Angle, upper.toNat = angle.toNat % 128 ∧ sineError angle = sineError upper := by
  by_cases h : angle.toNat < 128
  · exact ⟨angle, (Nat.mod_eq_of_lt h).symm, rfl⟩
  · exact ⟨angle + 128, by bv_omega, (sineError_add_half angle).symm⟩

/-- In quadrants 0 and 2 the error is the rounding of the entry. -/
theorem sineError_of_rising {angle : Angle} {i : Fin 64} (h : angle.toNat % 128 = i) :
    sineError angle = |((sineTable[i]).toInt : ℝ) - exactEntry i| := by
  obtain ⟨upper, hupper, herror⟩ := exists_upper_half angle
  rw [herror, sineError, sin8_of_rising _ (hupper.trans h), exactSine_of_rising (hupper.trans h)]

/-- In quadrants 1 and 3 an entry stands one step off its exact value. -/
theorem sineError_of_falling {angle : Angle} {i : Fin 64} (h : angle.toNat % 128 = 127 - i) :
    sineError angle = |((sineTable[i]).toInt : ℝ) - exactEntry (i + 1)| := by
  obtain ⟨upper, hupper, herror⟩ := exists_upper_half angle
  rw [herror, sineError, sin8_of_falling _ (hupper.trans h), exactSine_of_falling (i := i + 1) (by omega) (by omega)]

/-- R110: the worst angles are those that read entry 5, by a margin that an integer comparison sees. -/
theorem nearEntry_mirrored : ∀ i : Fin 64, i ≠ 5 → NearEntry (i + 1) (10 ^ 6 * (sineTable[i]).toInt) 6562000 := by
  unfold NearEntry
  decide

theorem nearEntry_worst : NearEntry 6 37563000 500 := by
  unfold NearEntry
  decide

/-- R110: 37.563 to three decimals. -/
theorem abs_exactEntry_six_sub_lt : |37.563 - exactEntry 6| < 0.0005 :=
  abs_sub_exactEntry_lt (by norm_num) nearEntry_worst (by norm_num) (by norm_num)

theorem sineTable_five : (sineTable[(5 : Fin 64)]).toInt = 31 := by decide

theorem sineError_of_worst {angle : Angle} (h : angle.toNat % 128 = 122) : sineError angle = exactEntry 6 - 31 := by
  obtain ⟨-, hupper⟩ := abs_lt.mp abs_exactEntry_six_sub_lt
  have herror : sineError angle = |31 - exactEntry 6| := by
    rw [sineError_of_falling (i := 5) h, sineTable_five, Int.cast_ofNat]
    rfl
  rw [herror, abs_sub_comm, abs_of_pos]
  linarith

/-- R110: in quadrants 0 and 2. -/
theorem sineError_le_half {angle : Angle} (h : angle.toNat % 128 < 64) : sineError angle ≤ 1 / 2 := by
  rw [sineError_of_rising (i := ⟨_, h⟩) rfl]
  obtain ⟨hnear, -⟩ := nearEntry_sineTable ⟨_, h⟩
  refine (abs_sub_exactEntry_lt h.le hnear ?_ (by norm_num : (0.4993 : ℝ) * 10 ^ 6 = _)).le.trans (by norm_num)
  push_cast
  ring

theorem sineError_le_worst (angle : Angle) : sineError angle ≤ exactEntry 6 - 31 := by
  obtain ⟨-, hupper⟩ := abs_lt.mp abs_exactEntry_six_sub_lt
  by_cases hrising : angle.toNat % 128 < 64
  · linarith [sineError_le_half hrising]
  obtain ⟨i, hi⟩ : ∃ i : Fin 64, angle.toNat % 128 = 127 - i := ⟨⟨127 - angle.toNat % 128, by omega⟩, by simp only; omega⟩
  obtain rfl | hne := eq_or_ne i 5
  · exact (sineError_of_worst hi).le
  · rw [sineError_of_falling hi]
    refine (abs_sub_exactEntry_lt (by omega) (nearEntry_mirrored i hne) ?_ (by norm_num : (6.562 : ℝ) * 10 ^ 6 = _)).le.trans
      (by linarith)
    push_cast
    ring

theorem sineError_le_of_worst {worst : Angle} (h : worst.toNat % 128 = 122) (angle : Angle) : sineError angle ≤ sineError worst :=
  (sineError_le_worst angle).trans_eq (sineError_of_worst h).symm

/-- Settles O23: by half turns and mirrors every error is that of an entry, which is an integer comparison with the polynomial. -/
theorem sineErrorIsBounded : Obligations.SineErrorIsBounded := by
  have h122 : exactSine 122 = exactEntry 6 := exactSine_of_falling (by decide) (by norm_num)
  have h250 : exactSine 250 = -exactEntry 6 := h122 ▸ exactSine_add_half 122
  obtain ⟨hlower, hupper⟩ := abs_lt.mp abs_exactEntry_six_sub_lt
  refine ⟨fun a => ⟨(sineError_le_worst a).trans (by linarith), sineError_le_of_worst (by decide) a,
    sineError_le_of_worst (by decide) a⟩, by decide, ?_, by decide, ?_, fun a h => sineError_le_half (by omega)⟩
  · change |exactSine 122 - 37.56| < 1 / 100
    rw [h122, abs_lt]
    constructor <;> linarith
  · change |exactSine 250 + 37.56| < 1 / 100
    rw [h250, abs_lt]
    constructor <;> linarith

end Sys2Proof.Machine

/-! PROOFS. ATAN2 (41_atan2.md): the magnitudes and the ratio, the angle against the rule's own, the quadrants and the axes, the restoring
divider, and the frame of the ops with a work register. -/

namespace Sys2Proof.Machine

open Sys2Proof.Claims

/-! ### The magnitudes, the branch and the ratio -/

theorem magnitude_eq_natAbs (w : Word) : magnitude w = w.toInt.natAbs := rfl

theorem natCast_magnitude (w : Word) : (magnitude w : Int) = |w.toInt| := Int.natCast_natAbs w.toInt

/-- R121, D12: 32768 is reached, by -32768. -/
theorem magnitude_le (w : Word) : magnitude w ≤ 32768 := by
  have hlo := BitVec.le_toInt w
  have hhi := BitVec.toInt_lt (x := w)
  rw [magnitude_eq_natAbs]
  omega

theorem magnitude_eq_zero_iff (w : Word) : magnitude w = 0 ↔ w.toInt = 0 := Int.natAbs_eq_zero

theorem minMagnitude_le_maxMagnitude (a b : Word) : minMagnitude a b ≤ maxMagnitude a b := min_le_max

theorem maxMagnitude_le (a b : Word) : maxMagnitude a b ≤ 32768 := max_le (magnitude_le b) (magnitude_le a)

/-- R126: the divisor is at least 1 where it divides. -/
theorem maxMagnitude_pos {a b : Word} (h : ¬ (b.toInt = 0 ∧ a.toInt = 0)) : 0 < maxMagnitude a b := by
  rw [← magnitude_eq_zero_iff, ← magnitude_eq_zero_iff] at h
  unfold maxMagnitude
  omega

/-- R121: the shift is a product by 256. -/
theorem ratio_eq_div (a b : Word) : ratio a b = minMagnitude a b * 256 / maxMagnitude a b := by
  rw [ratio, Nat.shiftLeft_eq]

theorem ratio_eq_div_natAbs (a b : Word) :
    ratio a b = min a.toInt.natAbs b.toInt.natAbs * 256 / max a.toInt.natAbs b.toInt.natAbs := by
  rw [ratio_eq_div, minMagnitude, maxMagnitude, min_comm, max_comm]
  rfl

theorem ratio_le (a b : Word) : ratio a b ≤ 256 := by
  rw [ratio_eq_div]
  refine Nat.div_le_of_le_mul ?_
  have := minMagnitude_le_maxMagnitude a b
  omega

/-- R121: the ratio reaches 256 exactly on the diagonals. -/
theorem ratio_eq_256_iff {a b : Word} (h : 0 < maxMagnitude a b) : ratio a b = 256 ↔ magnitude a = magnitude b := by
  have hreach : 256 ≤ ratio a b ↔ 256 * maxMagnitude a b ≤ minMagnitude a b * 256 := by
    rw [ratio_eq_div, Nat.le_div_iff_mul_le h]
  have hle := ratio_le a b
  simp only [minMagnitude, maxMagnitude] at hreach
  omega

/-- Settles O26: the magnitudes are absolute values, and a quotient of the smaller by the larger is at most 256. -/
theorem ratioIsBoundedAndDivisorNonzero : Obligations.RatioIsBoundedAndDivisorNonzero := by
  refine fun a b => ⟨natCast_magnitude a, magnitude_le a, by decide, ?_, fun h => ?_⟩
  · rw [inverted_iff, Int.abs_eq_natAbs, Int.abs_eq_natAbs, Int.ofNat_lt]
  have hpos := maxMagnitude_pos h
  have hdiag := ratio_eq_256_iff hpos
  refine ⟨hpos, minMagnitude_le_maxMagnitude a b, ?_, ?_, ?_, ratio_le a b, ?_, fun hinv => ?_⟩
  · rw [minMagnitude, Nat.cast_min, natCast_magnitude, natCast_magnitude]
  · rw [maxMagnitude, Nat.cast_max, natCast_magnitude, natCast_magnitude]
  · exact ratio_eq_div_natAbs a b
  · rw [hdiag, ← natCast_magnitude, ← natCast_magnitude, Nat.cast_inj]
  · have hne : ratio a b ≠ 256 := fun heq => ((inverted_iff a b).mp hinv).ne' (hdiag.mp heq)
    have := ratio_le a b
    omega

/-! ### The angle against the rule's own -/

/-- The word of an angle is the angle's remainder modulo 256 (R10). -/
theorem zextAngle_u8 (v : Int) : zextAngle (u8 v) = BitVec.ofInt 16 (v % 256) := by
  refine BitVec.eq_of_toNat_eq ?_
  simp only [zextAngle, u8, BitVec.toNat_setWidth, BitVec.toNat_ofInt]
  omega

theorem zextAngle_u8_toNat (v : Int) : ((zextAngle (u8 v)).toNat : Int) = v % 256 := by
  rw [zextAngle_u8, BitVec.toNat_ofInt]
  omega

/-- R125: the four cases of the signs, in the rule's order. -/
theorem quadrantAngle_decide (x y ang : Int) : quadrantAngle (decide (x < 0)) (decide (y < 0)) ang =
    if 0 ≤ x ∧ 0 ≤ y then ang else if x < 0 ∧ 0 ≤ y then 128 - ang else if x < 0 ∧ y < 0 then 128 + ang else 256 - ang := by
  by_cases hx : x < 0 <;> by_cases hy : y < 0 <;> simp [quadrantAngle, hx, hy, not_le.mpr, not_lt.mp]

/-- R123: the reflection of the inverted branch, on the integers that the operands stand for. -/
theorem octantAngle_inverted (shift : AtanShift) (a b : Word) (r : Nat) : octantAngle shift (inverted a b) r =
    if b.toInt.natAbs < a.toInt.natAbs then 64 - ((r >>> shift.amount : Nat) : Int) else ((r >>> shift.amount : Nat) : Int) := by
  simp only [octantAngle, inverted_iff]

/-- R120: the zero vector. -/
theorem atan8_of_zero (shift : AtanShift) {a b : Word} (h : b.toInt = 0 ∧ a.toInt = 0) : atan8 shift a b = 0 := if_pos h

theorem atan8_of_ne_zero (shift : AtanShift) {a b : Word} (h : ¬ (b.toInt = 0 ∧ a.toInt = 0)) : atan8 shift a b =
    u8 (quadrantAngle (decide (b.toInt < 0)) (decide (a.toInt < 0)) (octantAngle shift (inverted a b) (ratio a b))) :=
  if_neg h

/-- R122: the angle's word, on the rule's own arithmetic. -/
theorem zextAngle_atan8 (shift : AtanShift) (a b : Word) :
    zextAngle (atan8 shift a b) = BitVec.ofInt 16 (Claims.atan8 shift.amount a.toInt b.toInt) := by
  by_cases h : b.toInt = 0 ∧ a.toInt = 0
  · rw [atan8_of_zero shift h, Claims.atan8, if_pos h]
    rfl
  · rw [atan8_of_ne_zero shift h, zextAngle_u8, quadrantAngle_decide, octantAngle_inverted, Claims.atan8, if_neg h]
    rfl

theorem resultAtan2_eq (c : Config) (a b : Word) :
    resultAtan2 c a b = ⟨BitVec.ofInt 16 (Claims.atan8 c.atanShift.amount a.toInt b.toInt), false, false⟩ := by
  rw [resultAtan2, zextAngle_atan8]

/-- ATAN2 answers a word with both flags 0 exactly if the word is the angle's. -/
theorem answers_atan2_iff {a b w : Word} {s : State} :
    answers (.atan2 a b) s ⟨w, false, false⟩ ↔ zextAngle (atan8 s.config.atanShift a b) = w := by
  simp [answers_iff, resultOf, resultAtan2]

/-- What an ATAN2 that completes has written. -/
theorem resultR_of_exec_atan2 {a b : Word} {s t : State} (h : exec (.atan2 a b) s = .next t) :
    t.resultR = zextAngle (atan8 s.config.atanShift a b) := by
  rw [exec_eq] at h
  cases h
  rfl

/-! ### The axes -/

theorem ratio_eq_zero_of_axis {a b : Word} (h : a.toInt = 0 ∨ b.toInt = 0) : ratio a b = 0 := by
  rw [← magnitude_eq_zero_iff, ← magnitude_eq_zero_iff] at h
  have hmin : minMagnitude a b = 0 := by
    unfold minMagnitude
    omega
  rw [ratio_eq_div, hmin, Nat.zero_mul, Nat.zero_div]

/-- R123: a ratio of 0 is 0 under either shift. -/
theorem octantAngle_zero (shift : AtanShift) (inv : Bool) : octantAngle shift inv 0 = if inv then 64 else 0 := by
  simp [octantAngle]

/-- On an axis no ratio is left, so the shift does not matter. -/
theorem atan8_of_axis (shift : AtanShift) {a b : Word} (h : ¬ (b.toInt = 0 ∧ a.toInt = 0)) (haxis : a.toInt = 0 ∨ b.toInt = 0) :
    atan8 shift a b =
      u8 (quadrantAngle (decide (b.toInt < 0)) (decide (a.toInt < 0)) (if inverted a b then 64 else 0)) := by
  rw [atan8_of_ne_zero shift h, ratio_eq_zero_of_axis haxis, octantAngle_zero]

/-- R128: on the y axis the branch is inverted. -/
theorem atan8_of_x_eq_zero (shift : AtanShift) {y : Word} (h : y.toInt ≠ 0) :
    atan8 shift y 0 = if 0 < y.toInt then 64 else 192 := by
  have hinv : inverted y 0 = true := (inverted_iff y 0).mpr (Int.natAbs_pos.mpr h)
  rw [atan8_of_axis shift (fun hz => h hz.2) (.inr rfl), hinv]
  by_cases hpos : 0 < y.toInt
  · rw [if_pos hpos, decide_eq_false hpos.not_gt]
    rfl
  · rw [if_neg hpos, decide_eq_true (by omega : y.toInt < 0)]
    rfl

/-- R128: on the x axis it is not. -/
theorem atan8_of_y_eq_zero (shift : AtanShift) {x : Word} (h : x.toInt ≠ 0) :
    atan8 shift 0 x = if 0 < x.toInt then 0 else 128 := by
  have hinv : inverted 0 x = false := Bool.eq_false_iff.mpr fun hi => Nat.not_lt_zero _ ((inverted_iff 0 x).mp hi)
  rw [atan8_of_axis shift (fun hz => h hz.1) (.inl rfl), hinv]
  by_cases hpos : 0 < x.toInt
  · rw [if_pos hpos, decide_eq_false hpos.not_gt]
    rfl
  · rw [if_neg hpos, decide_eq_true (by omega : x.toInt < 0)]
    rfl

/-- Settles O28: on the axes the ratio is 0, so the branch and the signs alone give the angle. -/
theorem atan2AxisValuesAreExact : Obligations.Atan2AxisValuesAreExact := by
  unfold Obligations.Atan2AxisValuesAreExact
  simp only [answers_atan2_iff]
  refine fun s => ⟨?_, fun y h => ?_, fun y h => ?_, fun x h => ?_, fun x h => ?_⟩
  · rw [atan8_of_zero _ ⟨rfl, rfl⟩]
    rfl
  · rw [atan8_of_x_eq_zero _ h.ne', if_pos h]
    rfl
  · rw [atan8_of_x_eq_zero _ h.ne, if_neg h.not_gt]
    rfl
  · rw [atan8_of_y_eq_zero _ h.ne', if_pos h]
    rfl
  · rw [atan8_of_y_eq_zero _ h.ne, if_neg h.not_gt]
    rfl

/-! ### What ATAN2 writes -/

/-- R7: 2 is the amount of the default shift. -/
theorem AtanShift.eq_quarter_of_amount {shift : AtanShift} (h : shift.amount = 2) : shift = .quarter := by
  cases shift with
  | quarter => rfl
  | eighth => cases h

theorem zextAngle_high (v : Angle) : (zextAngle v).extractLsb' 8 8 = 0 := by
  ext k hk
  simp [zextAngle]

/-- Settles O25: the result function is the rule's, the axes are those of either shift, and the other corner cases evaluate. -/
theorem atan2WritesCorrectedRatioAngle : Obligations.Atan2WritesCorrectedRatioAngle := by
  refine ⟨fun a b s => ?_, fun _ _ _ => ⟨rfl, rfl⟩, fun s hshift => ?_, fun a b s t h => ?_⟩
  · rw [exec_eq, resultOf, resultAtan2_eq]
    rfl
  · obtain ⟨-, hup, hdown, hright, hleft⟩ := atan2AxisValuesAreExact s
    have hdecode : decode 0x2FF000000 = .atan2 0xFF00 0 := by decide
    refine ⟨fun p hp => ?_, fun w h => ⟨hup w h, hright w h⟩, fun w h => ⟨hdown w h, hleft w h⟩, ?_⟩
    · rw [answers_atan2_iff, AtanShift.eq_quarter_of_amount hshift]
      revert p
      decide
    · rw [hdecode]
      exact hdown _ (by decide)
  · rw [resultR_of_exec_atan2 h, zextAngle_high]

/-! ### The quadrants -/

/-- R123: the octant angle lies in 0..64, under either shift. -/
theorem octantAngle_bounds (shift : AtanShift) (inv : Bool) {r : Nat} (h : r ≤ 256) :
    0 ≤ octantAngle shift inv r ∧ octantAngle shift inv r ≤ 64 := by
  have hshift : r >>> shift.amount ≤ 64 := by
    rw [Nat.shiftRight_eq_div_pow]
    cases shift <;> simp only [AtanShift.amount] <;> omega
  simp only [octantAngle]
  generalize r >>> shift.amount = ang at hshift
  split <;> omega

/-- R125: the word that a nonzero vector's ATAN2 writes, by the signs. -/
theorem resultR_toNat_of_exec_atan2 {a b : Word} {s t : State} (hzero : ¬ (b.toInt = 0 ∧ a.toInt = 0))
    (h : exec (.atan2 a b) s = .next t) :
    let ang := octantAngle s.config.atanShift (inverted a b) (ratio a b)
    (t.resultR.toNat : Int) = (if 0 ≤ b.toInt ∧ 0 ≤ a.toInt then ang else if b.toInt < 0 ∧ 0 ≤ a.toInt then 128 - ang
      else if b.toInt < 0 ∧ a.toInt < 0 then 128 + ang else 256 - ang) % 256 := by
  rw [resultR_of_exec_atan2 h, atan8_of_ne_zero _ hzero, zextAngle_u8_toNat, quadrantAngle_decide]

/-- Settles O27: with an octant angle in 0..64 each of R125's four cases is its closed quadrant, and the rule's points evaluate. -/
theorem atan2StaysInClosedQuadrant : Obligations.Atan2StaysInClosedQuadrant := by
  refine ⟨fun a b s t hzero h => ?_, fun s => ?_⟩
  · obtain ⟨hlo, hhi⟩ := octantAngle_bounds s.config.atanShift (inverted a b) (ratio_le a b)
    have hword := resultR_toNat_of_exec_atan2 hzero h
    dsimp only at hword
    split_ifs at hword <;> omega
  · simp only [answers_atan2_iff]
    cases s.config.atanShift <;> decide

/-! ### The restoring divider

A restoring division takes the bits of the dividend `N` from the top down. With the bits below bit `n` still to come, `R` is the remainder of
`N / 2^n` by the divisor `D`, and `Q` is its quotient, in place. So `R < D` throughout, and `Q` is the whole quotient once no bit is left. -/

theorem div_mod_double_of_le {m d b : Nat} (hb : b < 2) (hd : 0 < d) (h : d ≤ 2 * (m % d) + b) :
    (2 * m + b) / d = 2 * (m / d) + 1 ∧ (2 * m + b) % d = 2 * (m % d) + b - d := by
  have hmod := Nat.mod_lt m hd
  have hdiv := Nat.div_add_mod m d
  have hmul : d * (2 * (m / d) + 1) = 2 * (d * (m / d)) + d := by ring
  exact (Nat.div_mod_unique hd).mpr ⟨by omega, by omega⟩

theorem div_mod_double_of_lt {m d b : Nat} (h : 2 * (m % d) + b < d) :
    (2 * m + b) / d = 2 * (m / d) ∧ (2 * m + b) % d = 2 * (m % d) + b := by
  have hdiv := Nat.div_add_mod m d
  have hmul : d * (2 * (m / d)) = 2 * (d * (m / d)) := by ring
  exact (Nat.div_mod_unique (by omega)).mpr ⟨by omega, h⟩

/-- The next bit of a dividend joins the bits above it. -/
theorem div_two_pow_eq_double (n j : Nat) : n / 2 ^ j = 2 * (n / 2 ^ (j + 1)) + (n.testBit j).toNat := by
  rw [Nat.toNat_testBit, pow_succ, ← Nat.div_div_eq_div_mul]
  omega

theorem one_shiftLeft_eq_ofNat (w j : Nat) : (1 : BitVec w) <<< j = BitVec.ofNat w (2 ^ j) := by
  refine BitVec.eq_of_toNat_eq ?_
  rw [BitVec.toNat_shiftLeft, BitVec.ofNat_eq_ofNat, BitVec.toNat_ofNat, BitVec.toNat_ofNat, Nat.shiftLeft_eq, Nat.mod_mul_mod,
    Nat.one_mul]

/-- A quotient of which bit `j` is still to come takes a 1 there. -/
theorem or_bit_eq_ofNat (w k j : Nat) :
    BitVec.ofNat w (k * 2 ^ (j + 1)) ||| (1 : BitVec w) <<< j = BitVec.ofNat w ((2 * k + 1) * 2 ^ j) := by
  have hlt : 2 ^ j < 2 ^ (j + 1) := Nat.pow_lt_pow_right (by decide) (by omega)
  have hadd : (2 * k + 1) * 2 ^ j = 2 ^ (j + 1) * k + 2 ^ j := by ring
  rw [one_shiftLeft_eq_ofNat, ← BitVec.ofNat_or, mul_comm k, ← Nat.two_pow_add_eq_or_of_lt hlt, hadd]

/-- A quotient of which bit `j` is still to come takes a 0 there. -/
theorem and_not_bit_eq_ofNat (w k j : Nat) :
    BitVec.ofNat w (k * 2 ^ (j + 1)) &&& ~~~((1 : BitVec w) <<< j) = BitVec.ofNat w (2 * k * 2 ^ j) := by
  have heq : 2 * k * 2 ^ j = k * 2 ^ (j + 1) := by ring
  rw [heq, one_shiftLeft_eq_ofNat]
  refine BitVec.eq_of_getLsbD_eq fun i hi => ?_
  rw [BitVec.getLsbD_and, BitVec.getLsbD_not, BitVec.getLsbD_ofNat, BitVec.getLsbD_ofNat, Nat.testBit_two_pow,
    Nat.testBit_mul_two_pow]
  by_cases hij : j = i <;> simp [hi, hij]

/-- The divider `w` with the bits of the dividend `n` below bit `j` still to come: `R` and `Q` of the division so far. -/
def Divider.dividing (w : Divider) (n j : Nat) : Divider :=
  { w with r := BitVec.ofNat 16 (n / 2 ^ j % w.d.toNat), q := BitVec.ofNat 9 (n / 2 ^ j / w.d.toNat * 2 ^ j) }

theorem Divider.dividing_r_toNat {w : Divider} (hd : 0 < w.d.toNat) (n j : Nat) :
    (w.dividing n j).r.toNat = n / 2 ^ j % w.d.toNat := by
  have hmod := Nat.mod_lt (n / 2 ^ j) hd
  have hd' := w.d.isLt
  simp only [Divider.dividing, BitVec.toNat_ofNat]
  exact Nat.mod_eq_of_lt (by omega)

/-- R124: an iteration edge is one step of the division. -/
theorem dividerIterate_dividing {w : Divider} {n j : Nat} (hd : 0 < w.d.toNat) (ht : w.t.getLsbD j = n.testBit j) :
    dividerIterate j (w.dividing n (j + 1)) = w.dividing n j := by
  have hbit := div_two_pow_eq_double n j
  have hshifted : 2 * (w.dividing n (j + 1)).r.toNat + ((w.dividing n (j + 1)).t.getLsbD j).toNat =
      2 * (n / 2 ^ (j + 1) % w.d.toNat) + (n.testBit j).toNat := by
    rw [Divider.dividing_r_toNat hd]
    exact congrArg _ (congrArg _ ht)
  have hdd : (w.dividing n (j + 1)).d = w.d := rfl
  simp only [dividerIterate, hshifted, hdd]
  split
  · next h =>
    obtain ⟨hq, hr⟩ := div_mod_double_of_le (Bool.toNat_lt _) hd h
    rw [Divider.dividing, Divider.dividing, or_bit_eq_ofNat, hbit, hq, hr]
  · next h =>
    obtain ⟨hq, hr⟩ := div_mod_double_of_lt (not_le.mp h)
    rw [Divider.dividing, Divider.dividing, and_not_bit_eq_ofNat, hbit, hq, hr]

/-- R124: the divisor; the zero vector has the divisor 1. -/
def divisor (a b : Word) : Nat := if b.toInt = 0 ∧ a.toInt = 0 then 1 else maxMagnitude a b

theorem divisor_pos (a b : Word) : 0 < divisor a b := by
  unfold divisor
  split
  · exact Nat.one_pos
  · next h => exact maxMagnitude_pos h

theorem minMagnitude_le_divisor (a b : Word) : minMagnitude a b ≤ divisor a b := by
  unfold divisor
  split
  · next h =>
    have hb := (magnitude_eq_zero_iff b).mpr h.1
    unfold minMagnitude
    omega
  · exact minMagnitude_le_maxMagnitude a b

/-- R120: the rule's zero vector is the pair of zero words. -/
theorem zero_words_iff (a b : Word) : (a = 0 ∧ b = 0) ↔ (b.toInt = 0 ∧ a.toInt = 0) := by
  rw [and_comm, ← BitVec.toInt_inj (x := a), ← BitVec.toInt_inj (x := b)]
  rfl

theorem dividerSetup_d_toNat (a b : Word) : (dividerSetup a b).d.toNat = divisor a b := by
  have := maxMagnitude_le a b
  simp only [dividerSetup, zero_words_iff, divisor]
  split
  · rfl
  · rw [BitVec.toNat_ofNat]
    omega

/-- R124: the tail holds the low nine bits of the dividend. -/
theorem dividerSetup_t (a b : Word) : (dividerSetup a b).t = BitVec.ofNat 9 (minMagnitude a b * 256) := by
  refine BitVec.eq_of_toNat_eq ?_
  simp only [dividerSetup, Nat.testBit_zero, decide_eq_true_eq, BitVec.toNat_ofNat]
  split
  · change 256 = _
    omega
  · change 0 = _
    omega

/-- R124: the setup edge has taken the bits above bit 8, which are less than the divisor. -/
theorem dividerSetup_eq_dividing (a b : Word) :
    dividerSetup a b = (dividerSetup a b).dividing (minMagnitude a b * 256) 9 := by
  have hlt : minMagnitude a b * 256 / 2 ^ 9 < (dividerSetup a b).d.toNat := by
    have := divisor_pos a b
    have := minMagnitude_le_divisor a b
    rw [dividerSetup_d_toNat]
    omega
  have hr : minMagnitude a b * 256 / 2 ^ 9 = minMagnitude a b >>> 1 := by
    rw [Nat.shiftRight_eq_div_pow]
    omega
  rw [Divider.dividing, Nat.mod_eq_of_lt hlt, Nat.div_eq_of_lt hlt, hr]
  rfl

/-- The divider after edge `k` of its schedule (R124): the bits of `Q` from `10 - k` up are done. -/
def dividerAfter (a b : Word) (k : Nat) : Divider := (dividerSetup a b).dividing (minMagnitude a b * 256) (10 - k)

theorem dividerStep_one (a b : Word) (w : Divider) : dividerStep a b 1 w = dividerAfter a b 1 := dividerSetup_eq_dividing a b

theorem dividerStep_dividerAfter (a b : Word) {k : Nat} (h1 : 1 ≤ k) (h9 : k ≤ 9) :
    dividerStep a b (k + 1) (dividerAfter a b k) = dividerAfter a b (k + 1) := by
  obtain ⟨j, hj⟩ : ∃ j, 10 - k = j + 1 := ⟨9 - k, by omega⟩
  have hj' : 10 - (k + 1) = j := by omega
  rw [dividerStep, if_neg (by omega), dividerAfter, dividerAfter, hj', hj]
  refine dividerIterate_dividing (dividerSetup_d_toNat a b ▸ divisor_pos a b) ?_
  rw [dividerSetup_t, BitVec.getLsbD_ofNat, decide_eq_true (by omega : j < 9), Bool.true_and]

theorem dividerAfter_q_toNat {a b : Word} (h : ¬ (b.toInt = 0 ∧ a.toInt = 0)) : (dividerAfter a b 10).q.toNat = ratio a b := by
  have hratio := ratio_le a b
  have hd : (dividerSetup a b).d.toNat = maxMagnitude a b := (dividerSetup_d_toNat a b).trans (if_neg h)
  simp only [dividerAfter, Divider.dividing, hd, Nat.sub_self, pow_zero, Nat.div_one, mul_one, ← ratio_eq_div, BitVec.toNat_ofNat]
  omega

/-- R124, R125: the sign bits are the signs. -/
theorem signBit_eq_decide (w : Word) : w.getLsbD 15 = decide (w.toInt < 0) :=
  (BitVec.msb_eq_getLsbD_last w).symm.trans BitVec.msb_eq_toInt

/-- R124: the finalise stage after the last edge drives the result word. -/
theorem dividerFinalise_dividerAfter (shift : AtanShift) (a b : Word) :
    dividerFinalise shift (dividerAfter a b 10) = zextAngle (atan8 shift a b) := by
  have hz : (dividerAfter a b 10).z = decide (b.toInt = 0 ∧ a.toInt = 0) := decide_eq_decide.mpr (zero_words_iff a b)
  have hx : (dividerAfter a b 10).xn = decide (b.toInt < 0) := signBit_eq_decide b
  have hy : (dividerAfter a b 10).yn = decide (a.toInt < 0) := signBit_eq_decide a
  have hinv : (dividerAfter a b 10).inv = inverted a b := rfl
  rw [dividerFinalise, hz, hx, hy, hinv]
  by_cases h : b.toInt = 0 ∧ a.toInt = 0
  · rw [decide_eq_true h, if_pos rfl, atan8_of_zero shift h]
    rfl
  · rw [decide_eq_false h, dividerAfter_q_toNat h, atan8_of_ne_zero shift h]
    rfl

/-! ### The divider in flight -/

/-- R223: what every countdown edge keeps, with the number of the edges so far, holds throughout the countdown. -/
theorem exists_countedDown_of_kept {s : State} {n : Nat} {P : Nat → State → Prop} (hb : s.booted = true) (hbusy : s.busy = true)
    (hr : s.noResetFor n) (h0 : P 0 s) (hkept : ∀ k t, CountedDown s k t → P k t → P (k + 1) t.tick.countdownEdge) :
    ∀ k, k ≤ n → k ≤ s.cnt.toNat → ∃ t, runFor k s = .next t ∧ CountedDown s k t ∧ P k t := by
  intro k
  induction k with
  | zero => exact fun _ _ => ⟨s, rfl, .refl s, h0⟩
  | succ k ih =>
    intro hkn hkc
    obtain ⟨t, ht, hd, hp⟩ := ih (by omega) (by omega)
    have hcnt : t.cnt ≠ 0 := by
      have := hd.cnt
      bv_omega
    have hrst : t.input.rst = false := by
      rw [input_of_host_eq_drop hd.host]
      exact hr k hkn
    have hstep := step_countdown t (hd.booted.trans hb) hrst (hd.busy.trans hbusy) hcnt
    exact ⟨_, runFor_succ_last ht hstep, hd.countdownEdge hcnt, hkept k t hd hp⟩

/-- R224, R230: an accepted command completes from a state that its countdown has led to, with what every countdown edge has kept. -/
theorem exists_completion_of_kept {s : State} {P : Nat → State → Prop} (hb : s.booted = true) (ha : accepts s)
    (hr : s.noResetFor ((latencyOf s.config s.input.cmdOp).edges + 1)) (h0 : P 0 (s.tick.acceptEdge s.input))
    (hkept : ∀ k t, CountedDown (s.tick.acceptEdge s.input) k t → P k t → P (k + 1) t.tick.countdownEdge) :
    ∃ t, CountedDown (s.tick.acceptEdge s.input) (s.tick.acceptEdge s.input).cnt.toNat t ∧
      P (s.tick.acceptEdge s.input).cnt.toNat t ∧
      runFor ((latencyOf s.config s.input.cmdOp).edges + 1) s = .next
        ((t.tick.stepDatapath (s.tick.acceptEdge s.input).latched).complete
          (resultOf s.config s.rom (s.tick.acceptEdge s.input).latched)) := by
  obtain ⟨hrst, hidle, hvalid⟩ := ha
  rw [runFor_succ _ (step_accept s hb hrst hidle hvalid)]
  rw [← s.acceptEdge_edges] at hr ⊢
  have hr' : (s.tick.acceptEdge s.input).noResetFor ((s.tick.acceptEdge s.input).cnt.toNat + 1) := hr.tail rfl
  obtain ⟨t, ht, hd, hp⟩ := exists_countedDown_of_kept (s := s.tick.acceptEdge s.input) hb rfl hr' h0 hkept _ (by omega) le_rfl
  have hcnt : t.cnt = 0 := BitVec.eq_of_toNat_eq (by simpa using hd.cnt)
  have hrst' : t.input.rst = false := by
    rw [input_of_host_eq_drop hd.host]
    exact hr' _ (by omega)
  have hstep := step_complete t (hd.booted.trans hb) hrst' hd.busy hcnt
  rw [exec_eq, hd.latched, State.tick_config, State.tick_rom, hd.config, hd.rom] at hstep
  exact ⟨t, hd, hp, runFor_succ_last ht hstep⟩

/-- R124: with the default latency the next edge of an ATAN2 in flight is the next of its schedule. -/
theorem State.stepDivider_divider {t : State} {a b : Word} {k : Nat} (hlat : t.config.latAtan2.edges = 10)
    (hcnt : t.cnt.toNat + k = 9) (h : 0 < k → t.divider = dividerAfter a b k) :
    (t.stepDivider a b).divider = dividerAfter a b (k + 1) := by
  have hedge : t.edgeNumber t.config.latAtan2 = k + 1 := by
    unfold State.edgeNumber
    omega
  have hin : inSchedule (k + 1) 10 = true := decide_eq_true (by omega)
  simp only [State.stepDivider, hedge, hin, if_true]
  obtain rfl | hpos := Nat.eq_zero_or_pos k
  · exact dividerStep_one a b t.divider
  · rw [h hpos, dividerStep_dividerAfter a b hpos (by omega)]

/-- Settles O58: after each edge the divider holds the division so far (`dividerAfter`), which every countdown edge and the completion edge
carry on; after the tenth edge `Q` is the ratio and the finalise stage its angle. -/
theorem dividerEndsWithAtan2Result : Obligations.DividerEndsWithAtan2Result := by
  intro s hb ha hop hlat hr
  have hedges : (latencyOf s.config s.input.cmdOp).edges = 10 := by rw [hop]; exact hlat
  have hlatched : (s.tick.acceptEdge s.input).latched = .atan2 s.input.cmdA s.input.cmdB := by
    simp only [State.latched, State.acceptEdge_opR, State.acceptEdge_aR, State.acceptEdge_bR, hop]
    rfl
  have hload : (s.tick.acceptEdge s.input).cnt.toNat = 9 := by
    have := s.acceptEdge_edges
    omega
  have hnext {k : Nat} {t : State} (hd : CountedDown (s.tick.acceptEdge s.input) k t)
      (h : 0 < k → t.divider = dividerAfter s.input.cmdA s.input.cmdB k) :
      (t.tick.stepDivider s.input.cmdA s.input.cmdB).divider = dividerAfter s.input.cmdA s.input.cmdB (k + 1) :=
    State.stepDivider_divider ((congrArg (·.latAtan2.edges) hd.config).trans hlat) (hd.cnt.trans hload) h
  obtain ⟨t, hd, hdivider, hrun⟩ := exists_completion_of_kept
    (P := fun k t => 0 < k → t.divider = dividerAfter s.input.cmdA s.input.cmdB k) hb ha (by rwa [hedges]) nofun
    fun k t hd h _ => by
      rw [State.countdownEdge_divider, State.tick_latched, hd.latched, hlatched]
      exact hnext hd h
  rw [hload] at hd hdivider
  rw [hedges, hlatched] at hrun
  have hfinal := hnext hd hdivider
  refine ⟨_, hrun, rfl, ?_, fun hzero => ?_⟩
  · rw [State.complete_divider, State.complete_config, State.stepDatapath_config, State.tick_config, hd.config, State.stepDatapath,
      hfinal, dividerFinalise_dividerAfter]
    rfl
  · rw [State.complete_divider, State.stepDatapath, hfinal, dividerAfter_q_toNat hzero, ratio_eq_div_natAbs]

/-! ### The frame of the ops with a work register -/

/-- Settles O37: such a command is its completion's writes and one step of its own datapath. -/
theorem frameOfOpsWithWorkRegisters : Obligations.FrameOfOpsWithWorkRegisters := by
  refine fun a b s t => ⟨fun h => ?_, fun h => ?_, fun h => ?_⟩ <;>
  · rw [exec_eq] at h
    cases h
    exact ⟨⟨rfl, rfl, rfl, rfl, rfl, rfl, rfl, rfl⟩, fun _ => rfl, rfl⟩

end Sys2Proof.Machine

/-! PROOFS. ISQRT (42_isqrt.md): the exact root that the command writes, and the bit-serial search, which finds it bit by bit from any start
position. -/

namespace Sys2Proof.Machine

open Sys2Proof.Claims

/-! ### What ISQRT writes -/

/-- R142: the root of a 16-bit radicand has eight bits. -/
theorem sqrt_toNat_le (v : Word) : Nat.sqrt v.toNat ≤ 255 :=
  Nat.le_of_lt_succ (Nat.sqrt_lt'.mpr v.isLt)

/-- R141: ISQRT, on the library's square root. -/
theorem resultIsqrt_eq (a b : Word) : resultIsqrt a b = ⟨BitVec.ofNat 16 (Nat.sqrt a.toNat), false, false⟩ := by
  rw [resultIsqrt, isqrt_eq_sqrt]

/-- R141: a bracketed root is the one that ISQRT answers. -/
theorem answers_isqrt_of_bracket {a : Word} {r : Nat} (h : r * r ≤ a.toNat ∧ a.toNat < (r + 1) * (r + 1)) (b : Word) (s : State) :
    answers (.isqrt a b) s ⟨BitVec.ofNat 16 r, false, false⟩ := by
  rw [answers_iff, resultOf, resultIsqrt_eq, Nat.eq_sqrt.mpr h]

/-- Settles O29: the result function is the library's root, which has the rule's bracket; the corner cases are brackets of literals. -/
theorem isqrtWritesExactRoot : Obligations.IsqrtWritesExactRoot := by
  refine ⟨fun a b s => ?_, fun _ _ _ => ⟨rfl, rfl⟩, fun s b p hp => answers_isqrt_of_bracket ?_ b s, fun s => ?_⟩
  · refine ⟨Nat.sqrt a.toNat, Nat.sqrt_le a.toNat, Nat.lt_succ_sqrt a.toNat, sqrt_toNat_le a, ?_⟩
    rw [exec_eq, resultOf, resultIsqrt_eq]
    rfl
  · revert p
    decide
  · have hdecode : decode 0x3FFFF0000 = .isqrt 0xFFFF 0 := by decide
    rw [hdecode]
    exact answers_isqrt_of_bracket (r := 255) (by decide) 0 s

/-! ### The bit-serial search

The search settles the bits of the root from the top down. Once bit `j` is settled, `acc` holds the root with the bits below `j` cleared; the
trial at `j` compares squares, so it keeps bit `j` exactly if the root has it. -/

/-- The root of `v` with the bits below bit `j` cleared. -/
def rootAbove (v : Word) (j : Nat) : BitVec 15 := BitVec.ofNat 15 (Nat.sqrt v.toNat / 2 ^ j * 2 ^ j)

/-- R142: the root has no bit from bit 8 up. -/
theorem rootAbove_of_eight_le (v : Word) {j : Nat} (h : 8 ≤ j) : rootAbove v j = 0 := by
  have hlt : Nat.sqrt v.toNat < 2 ^ j := calc
    Nat.sqrt v.toNat < 2 ^ 8 := Nat.lt_succ_of_le (sqrt_toNat_le v)
    _ ≤ 2 ^ j := Nat.pow_le_pow_right Nat.two_pos h
  rw [rootAbove, Nat.div_eq_of_lt hlt, Nat.zero_mul]
  rfl

theorem rootAbove_zero_toNat (v : Word) : (rootAbove v 0).toNat = Nat.sqrt v.toNat := by
  have := sqrt_toNat_le v
  rw [rootAbove, pow_zero, Nat.div_one, mul_one, BitVec.toNat_ofNat, Nat.mod_eq_of_lt (by omega)]

/-- R143: the value that the trial at `j` squares is the settled part of the root with a 1 at bit `j`, whole. -/
theorem rootAbove_or_bit_toNat (v : Word) {j : Nat} (h : j ≤ 14) :
    (rootAbove v (j + 1) ||| (1 : BitVec 15) <<< j).toNat = (2 * (Nat.sqrt v.toNat / 2 ^ (j + 1)) + 1) * 2 ^ j := by
  have hbit : 2 ^ j ≤ 2 ^ 14 := Nat.pow_le_pow_right Nat.two_pos h
  have hroot := sqrt_toNat_le v
  have hsettled := Nat.div_mul_le_self (Nat.sqrt v.toNat) (2 ^ (j + 1))
  have hsum : (2 * (Nat.sqrt v.toNat / 2 ^ (j + 1)) + 1) * 2 ^ j = Nat.sqrt v.toNat / 2 ^ (j + 1) * 2 ^ (j + 1) + 2 ^ j := by ring
  rw [rootAbove, or_bit_eq_ofNat, BitVec.toNat_ofNat, Nat.mod_eq_of_lt (by omega)]

/-- R143: a trial settles its bit of the root. -/
theorem rootTrial_rootAbove (v : Word) {j : Nat} (h : j ≤ 14) : rootTrial v j (rootAbove v (j + 1)) = rootAbove v j := by
  have hdouble := div_two_pow_eq_double (Nat.sqrt v.toNat) j
  simp only [rootTrial, rootAbove_or_bit_toNat v h, ← Nat.le_sqrt, ← Nat.le_div_iff_mul_le (Nat.two_pow_pos j), hdouble]
  cases hbit : (Nat.sqrt v.toNat).testBit j
  · rw [if_neg (by simp), rootAbove, rootAbove, hdouble, hbit, pow_succ', ← mul_assoc, mul_comm _ 2]
    rfl
  · rw [if_pos (by simp), rootAbove, rootAbove, or_bit_eq_ofNat, hdouble, hbit]
    rfl

/-- R143: the trials at the positions below `n` settle the bits below `n`. -/
theorem foldl_rootTrial_rootAbove (v : Word) {n : Nat} (h : n ≤ 15) :
    (List.range n).reverse.foldl (fun acc p => rootTrial v p acc) (rootAbove v n) = rootAbove v 0 := by
  induction n with
  | zero => rfl
  | succ n ih =>
    rw [List.range_succ, List.reverse_concat, List.foldl_cons, rootTrial_rootAbove v (by omega)]
    exact ih (by omega)

/-- Settles O30: from bit 8 up the settled part of the root is 0, before a trial and after it. -/
theorem trialsAboveBitSevenAreRejected : Obligations.TrialsAboveBitSevenAreRejected := by
  refine ⟨fun v p hlo hhi => ?_, fun v start hlo hhi => ?_⟩
  · have htrial := rootTrial_rootAbove v hhi
    rwa [rootAbove_of_eight_le v (by omega), rootAbove_of_eight_le v hlo] at htrial
  · rw [← rootAbove_of_eight_le v (show 8 ≤ start + 1 by omega), foldl_rootTrial_rootAbove v (by omega), rootAbove_zero_toNat]

/-! ### The search in flight -/

/-- R143: with the default latency the edge after `k` others of an ISQRT in flight is the trial at position `14 - k`. -/
theorem State.stepIsqrt_acc {t : State} {a : Word} {k : Nat} (hlat : t.config.latIsqrt.edges = 15) (hcnt : t.cnt.toNat + k = 14)
    (hacc : t.rooter.acc = rootAbove a (15 - k)) : (t.stepIsqrt a).rooter.acc = rootAbove a (15 - (k + 1)) := by
  have hedge : t.edgeNumber t.config.latIsqrt = k + 1 := by
    unfold State.edgeNumber
    omega
  have hin : inSchedule (k + 1) 15 = true := decide_eq_true (by omega)
  have hposition : 15 - k = 15 - (k + 1) + 1 := by omega
  simp only [State.stepIsqrt, hedge, hin, if_true, isqrtStep, hacc, hposition]
  exact rootTrial_rootAbove a (by omega)

/-- Settles O59: after `k` edges `acc` holds the root from bit `15 - k` up, as acceptance establishes and each edge keeps; after the fifteenth,
the completion edge, it is the whole root. -/
theorem bitSerialSearchEndsWithRoot : Obligations.BitSerialSearchEndsWithRoot := by
  intro s hb ha hop hlat hr
  have hedges : (latencyOf s.config s.input.cmdOp).edges = 15 := hop ▸ hlat
  have hlatched : (s.tick.acceptEdge s.input).latched = .isqrt s.input.cmdA s.input.cmdB :=
    congrArg (decodeFields · s.input.cmdA s.input.cmdB) hop
  have hload : (s.tick.acceptEdge s.input).cnt.toNat = 14 := by
    have := s.acceptEdge_edges
    omega
  have hcleared : (s.tick.acceptEdge s.input).rooter.acc = rootAbove s.input.cmdA 15 := by
    rw [State.acceptEdge_rooter, hop, rootAbove_of_eight_le _ (by omega)]
    rfl
  have hnext {k : Nat} {t : State} (hd : CountedDown (s.tick.acceptEdge s.input) k t)
      (hacc : t.rooter.acc = rootAbove s.input.cmdA (15 - k)) :
      (t.tick.stepIsqrt s.input.cmdA).rooter.acc = rootAbove s.input.cmdA (15 - (k + 1)) :=
    State.stepIsqrt_acc ((congrArg (·.latIsqrt.edges) hd.config).trans hlat) (hd.cnt.trans hload) hacc
  obtain ⟨t, hd, hacc, hrun⟩ := exists_completion_of_kept
    (P := fun k t => t.rooter.acc = rootAbove s.input.cmdA (15 - k)) hb ha (by rwa [hedges]) hcleared
    fun k t hd hacc => by
      rw [State.countdownEdge_rooter, State.tick_latched, hd.latched, hlatched]
      exact hnext hd hacc
  rw [hload] at hd hacc
  rw [hedges, hlatched] at hrun
  have hroot : ((t.tick.stepIsqrt s.input.cmdA).rooter.acc).toNat = Nat.sqrt s.input.cmdA.toNat := by
    rw [hnext hd hacc, rootAbove_zero_toNat]
  refine ⟨_, hrun, rfl, hroot, ?_⟩
  rw [State.complete_resultR, resultOf, resultIsqrt_eq, ← hroot, BitVec.ofNat_toNat]
  rfl

end Sys2Proof.Machine

/-! PROOFS. MAG (43_magnitude.md): the sum of squares and its overflow, what the command writes and how that follows the magnitudes,
and the pipe, which ends with the root of the reduced sum. -/

namespace Sys2Proof.Machine

open Sys2Proof.Claims

/-! ### The sum of squares -/

/-- R161: the rule's sum, by its two terms. -/
theorem magSum_eq (a b : Int) : magSum a b = squareTerm a.natAbs + squareTerm b.natAbs := rfl

/-- R161: the exact sum, on the integers that the operands stand for. -/
theorem squareSum_eq_magSum (a b : Word) : squareSum a b = magSum a.toInt b.toInt := rfl

/-- R164: the radicand is the sum modulo 2^16. -/
theorem squareSum16_toNat (a b : Word) : (squareSum16 a b).toNat = magSum a.toInt b.toInt % 65536 :=
  BitVec.toNat_ofNat (squareSum a b) 16

theorem squareTerm_mono : Monotone squareTerm := fun u v h => by
  rw [squareTerm, squareTerm, Nat.shiftRight_eq_div_pow, Nat.shiftRight_eq_div_pow]
  exact Nat.div_le_div_right (Nat.mul_self_le_mul_self h)

/-- R166: the sum follows the magnitudes. -/
theorem magSum_le_magSum {a b a' b' : Int} (ha : |a| ≤ |a'|) (hb : |b| ≤ |b'|) : magSum a b ≤ magSum a' b' := by
  rw [Int.abs_eq_natAbs, Int.abs_eq_natAbs, Int.ofNat_le] at ha hb
  exact Nat.add_le_add (squareTerm_mono ha) (squareTerm_mono hb)

/-- R166: the sum depends on the magnitudes only. -/
theorem magSum_congr {a b a' b' : Int} (ha : |a| = |a'|) (hb : |b| = |b'|) : magSum a b = magSum a' b' :=
  le_antisymm (magSum_le_magSum ha.le hb.le) (magSum_le_magSum ha.ge hb.ge)

theorem magSum_comm (a b : Int) : magSum a b = magSum b a := Nat.add_comm _ _

/-- A term reaches a bound exactly from the magnitude at which it first does. -/
theorem le_squareTerm_iff {bound m u : Nat} (hbelow : squareTerm m < bound) (hat : bound ≤ squareTerm (m + 1)) :
    bound ≤ squareTerm u ↔ m < u :=
  ⟨fun h => squareTerm_mono.reflect_lt (hbelow.trans_le h), fun h => hat.trans (squareTerm_mono h)⟩

/-- R164: on one axis the sum is its one term. -/
theorem overflow_iff_of_axis (a : Int) : 65536 ≤ magSum a 0 ↔ 4096 ≤ |a| := by
  have hterm : 65536 ≤ squareTerm a.natAbs ↔ 4095 < a.natAbs := le_squareTerm_iff (by decide) (by decide)
  rw [Int.abs_eq_natAbs]
  exact hterm.trans (by omega)

/-- R164: the sum of an equal pair is twice its term. -/
theorem overflow_iff_of_equal {a b : Int} (h : |a| = |b|) : 65536 ≤ magSum a b ↔ 2897 ≤ |a| := by
  have hterm : 32768 ≤ squareTerm a.natAbs ↔ 2896 < a.natAbs := le_squareTerm_iff (by decide) (by decide)
  rw [magSum_congr rfl h.symm, magSum_eq, Int.abs_eq_natAbs]
  omega

/-! ### What MAG writes -/

/-- R6: the shift is at most 7. -/
theorem two_pow_magShift_le (c : Config) : 2 ^ c.magShift.val ≤ 2 ^ 7 := Nat.pow_le_pow_right Nat.two_pos (Fin.is_le c.magShift)

/-- R161, R165: a root of eight bits keeps its whole value when it is rescaled. -/
theorem rescale_toNat (c : Config) {r : Nat} (h : r ≤ 255) : (rescale c r).toNat = r * 2 ^ c.magShift.val := by
  have hscale : r * 2 ^ c.magShift.val ≤ 255 * 2 ^ 7 := Nat.mul_le_mul h (two_pow_magShift_le c)
  rw [rescale, BitVec.toNat_ofNat, Nat.shiftLeft_eq, Nat.mod_eq_of_lt (by omega)]

/-- R161: the root of the reduced sum has eight bits. -/
theorem sqrt_magSum_le (a b : Word) : Nat.sqrt (magSum a.toInt b.toInt % 65536) ≤ 255 :=
  squareSum16_toNat a b ▸ sqrt_toNat_le (squareSum16 a b)

/-- R161: MAG, on the rule's sum and the library's square root. -/
theorem resultMag_eq (c : Config) (a b : Word) : resultMag c a b =
    ⟨rescale c (Nat.sqrt (magSum a.toInt b.toInt % 65536)), decide (65536 ≤ magSum a.toInt b.toInt), false⟩ := by
  rw [resultMag, isqrt_eq_sqrt, squareSum16_toNat]
  rfl

/-- R161: MAG's completion writes its triple. -/
theorem shown_of_exec_mag {a b : Word} {s t : State} (h : exec (.mag a b) s = .next t) : t.shown = resultMag s.config a b := by
  rw [exec_eq] at h
  cases h
  rfl

theorem resultR_of_exec_mag {a b : Word} {s t : State} (h : exec (.mag a b) s = .next t) :
    t.resultR = rescale s.config (Nat.sqrt (magSum a.toInt b.toInt % 65536)) :=
  congrArg Completion.result ((shown_of_exec_mag h).trans (resultMag_eq s.config a b))

/-- R164: the flag is 1 exactly if the unreduced sum is at least 65536. -/
theorem ovfR_of_exec_mag {a b : Word} {s t : State} (h : exec (.mag a b) s = .next t) :
    t.ovfR = true ↔ 65536 ≤ magSum a.toInt b.toInt := by
  have hovf : t.ovfR = magOverflow (squareSum a b) := congrArg Completion.ovf (shown_of_exec_mag h)
  rw [hovf, magOverflow_iff, squareSum_eq_magSum]

theorem resultR_toNat_of_exec_mag {a b : Word} {s t : State} (h : exec (.mag a b) s = .next t) :
    t.resultR.toNat = Nat.sqrt (magSum a.toInt b.toInt % 65536) * 2 ^ s.config.magShift.val := by
  rw [resultR_of_exec_mag h, rescale_toNat _ (sqrt_magSum_le a b)]

/-- R164, R166: without overflow the sum is not reduced. -/
theorem resultR_toNat_of_no_overflow {a b : Word} {s t : State} (h : exec (.mag a b) s = .next t) (hovf : t.ovfR = false) :
    t.resultR.toNat = Nat.sqrt (magSum a.toInt b.toInt) * 2 ^ s.config.magShift.val := by
  have hlt : ¬ 65536 ≤ magSum a.toInt b.toInt := by simp [← ovfR_of_exec_mag h, hovf]
  rw [resultR_toNat_of_exec_mag h, Nat.mod_eq_of_lt (not_le.mp hlt)]

/-- R161: `w` is a root times 16, and the root is that of the sum modulo 2^16, by its bracket. -/
def IsDefaultResult (sum w : Nat) : Prop :=
  w / 16 * 16 = w ∧ w / 16 * (w / 16) ≤ sum % 65536 ∧ sum % 65536 < (w / 16 + 1) * (w / 16 + 1)

/-- R161: at the default shift such a word is the one that MAG answers. -/
theorem answers_mag_of_isDefaultResult {a b : Word} {s : State} {w : Nat} (hshift : s.config.magShift = 4)
    (h : IsDefaultResult (magSum a.toInt b.toInt) w) :
    answers (.mag a b) s ⟨BitVec.ofNat 16 w, decide (65536 ≤ magSum a.toInt b.toInt), false⟩ := by
  obtain ⟨hscaled, hroot⟩ := h
  rw [answers_iff, resultOf, resultMag_eq, ← Nat.eq_sqrt.mpr hroot, rescale, hshift, Nat.shiftLeft_eq]
  exact congrArg (fun r => Completion.mk (BitVec.ofNat 16 r) _ false) hscaled

/-- Settles O31: the result function is the rule's sum and the library's root; the corner cases are brackets of literals (`IsDefaultResult`),
and an eight-bit root stays below the sign bit under every shift. -/
theorem magWritesRescaledRoot : Obligations.MagWritesRescaledRoot := by
  refine ⟨fun a b s => ?_, fun _ _ _ => ⟨rfl, rfl⟩, fun s hshift => ⟨fun p hp => ?_, ?_⟩, fun a b s t h => ?_⟩
  · rw [exec_eq, resultOf, resultMag_eq]
    rfl
  · obtain ⟨hresult, hovf⟩ : IsDefaultResult (magSum (BitVec.ofInt 16 p.1).toInt (BitVec.ofInt 16 p.2.1).toInt) p.2.2.1 ∧
        decide (65536 ≤ magSum (BitVec.ofInt 16 p.1).toInt (BitVec.ofInt 16 p.2.1).toInt) = p.2.2.2 := by
      unfold IsDefaultResult
      revert p
      decide
    rw [← hovf]
    exact answers_mag_of_isDefaultResult hshift hresult
  · have hdecode : decode 0x403000400 = .mag 768 1024 := by decide
    rw [hdecode]
    exact answers_mag_of_isDefaultResult (w := 1280) hshift (by unfold IsDefaultResult; decide)
  · have hbound : t.resultR.toNat ≤ 255 * 2 ^ s.config.magShift.val := by
      rw [resultR_toNat_of_exec_mag h]
      exact Nat.mul_le_mul_right _ (sqrt_magSum_le a b)
    have hscale := two_pow_magShift_le s.config
    rw [BitVec.toInt_eq_toNat_of_lt (by omega)]
    exact ⟨Int.natCast_nonneg _, hbound⟩

/-- Settles O32: the sum reaches 65536 where one term does, or where a term doubled does. -/
theorem magOverflowBoundaryIsExact : Obligations.MagOverflowBoundaryIsExact := by
  refine ⟨fun a b s t h => ⟨ovfR_of_exec_mag h, resultR_of_exec_mag h⟩, fun a b => (Nat.add_mod _ _ _).symm, fun a s t h => ?_, rfl, rfl,
    fun a b s t hab h => ?_⟩
  · exact (ovfR_of_exec_mag h).trans (overflow_iff_of_axis a.toInt)
  · exact (ovfR_of_exec_mag h).trans (overflow_iff_of_equal hab)

/-- Settles O33: the triple is a function of the sum, which the magnitudes determine and the order of the operands does not change; the root of
an unreduced sum grows with it, and 65566 reduces to 30. -/
theorem magIsSymmetricAndMonotone : Obligations.MagIsSymmetricAndMonotone := by
  refine ⟨fun a b a' b' s ha hb => ?_, fun a b a' b' s t t' ha hb h h' hovf hovf' => ?_, fun a b s t hshift h hovf => ?_, fun s => ?_⟩
  · refine ⟨resultMag s.config a b, answers_iff.mpr rfl, answers_iff.mpr ?_, answers_iff.mpr ?_⟩
    · rw [resultOf, resultMag_eq, resultMag_eq, magSum_congr ha hb]
    · rw [resultOf, resultMag_eq, resultMag_eq, magSum_comm]
  · rw [resultR_toNat_of_no_overflow h hovf, resultR_toNat_of_no_overflow h' hovf']
    exact Nat.mul_le_mul_right _ (Nat.sqrt_le_sqrt (magSum_le_magSum ha hb))
  · rw [resultR_toNat_of_no_overflow h hovf, hshift, mul_comm]
    rfl
  · obtain ⟨t, h⟩ : ∃ t, exec (.mag 2897 2897) s = .next t := ⟨_, exec_eq _ s⟩
    obtain ⟨t', h'⟩ : ∃ t', exec (.mag 2896 2896) s = .next t' := ⟨_, exec_eq _ s⟩
    have hsum : magSum (2897 : Word).toInt (2897 : Word).toInt = 65566 := rfl
    have hsum' : magSum (2896 : Word).toInt (2896 : Word).toInt = 65522 := rfl
    have hovf : t.ovfR = true := (ovfR_of_exec_mag h).mpr (by decide)
    have hovf' : t'.ovfR = false := Bool.eq_false_iff.mpr (mt (ovfR_of_exec_mag h').mp (by decide))
    have hroot : Nat.sqrt 30 < Nat.sqrt 65522 := (Nat.sqrt_lt.mpr (by decide : 30 < 6 * 6)).trans_le (Nat.le_sqrt.mpr (by decide))
    refine ⟨t, t', h, hovf, h', hovf', ?_⟩
    rw [resultR_toNat_of_exec_mag h, resultR_toNat_of_no_overflow h' hovf', hsum, hsum']
    exact Nat.mul_lt_mul_of_pos_right hroot (Nat.two_pow_pos _)

/-! ### The pipe

The front-end edge loads the radicand and the pending flag and clears `acc`; the fifteen edges after it are the bit-serial search of ISQRT
over `v`. -/

/-- The pipe after its first `k` edges, from the first one on: the root of the reduced sum is settled from bit `16 - k` up. -/
def pipeAfter (a b : Word) (k : Nat) : Rooter := { magFrontEnd a b with acc := rootAbove (squareSum16 a b) (16 - k) }

/-- R163: the front-end edge leaves `acc` at 0, with no bit of the root settled. -/
theorem magFrontEnd_eq_pipeAfter (a b : Word) : magFrontEnd a b = pipeAfter a b 1 := by
  rw [pipeAfter, rootAbove_of_eight_le _ (by decide)]
  rfl

/-- R163: an edge after the front-end edge settles the next bit of the root. -/
theorem magStep_pipeAfter (a b : Word) {k : Nat} (h1 : 1 ≤ k) (h15 : k ≤ 15) :
    magStep a b (k + 1) (pipeAfter a b k) = pipeAfter a b (k + 1) := by
  have hposition : 16 - k = 16 - (k + 1) + 1 := by omega
  have htrial := rootTrial_rootAbove (squareSum16 a b) (j := 16 - (k + 1)) (by omega)
  rw [magStep, if_neg (by omega), pipeAfter, pipeAfter, ← htrial, hposition]
  rfl

/-- R163: after the last edge `acc` is the root of the reduced sum. -/
theorem pipeAfter_acc_toNat (a b : Word) : (pipeAfter a b 16).acc.toNat = Nat.sqrt (magSum a.toInt b.toInt % 65536) := by
  rw [← squareSum16_toNat, ← rootAbove_zero_toNat]
  rfl

/-- R163: with the default latency the next edge of a MAG in flight is the next of its schedule. -/
theorem State.stepMag_rooter {t : State} {a b : Word} {k : Nat} (hlat : t.config.latMag.edges = 16) (hcnt : t.cnt.toNat + k = 15)
    (h : 0 < k → t.rooter = pipeAfter a b k) : (t.stepMag a b).rooter = pipeAfter a b (k + 1) := by
  have hedge : t.edgeNumber t.config.latMag = k + 1 := by
    unfold State.edgeNumber
    omega
  have hin : inSchedule (k + 1) 16 = true := decide_eq_true (by omega)
  simp only [State.stepMag, hedge, hin, if_true]
  obtain rfl | hpos := Nat.eq_zero_or_pos k
  · exact magFrontEnd_eq_pipeAfter a b
  · rw [h hpos, magStep_pipeAfter a b hpos (by omega)]

/-- R163, R165: the rescaled word is the accumulator, extended and shifted. -/
theorem rescale_toNat_acc (c : Config) (acc : BitVec 15) : rescale c acc.toNat = acc.setWidth 16 <<< c.magShift.val := by
  refine BitVec.eq_of_toNat_eq ?_
  rw [rescale, BitVec.toNat_ofNat, BitVec.toNat_shiftLeft, BitVec.toNat_setWidth_of_le (by decide)]

/-- R223, R224: what the edges of a command's datapath, numbered from 0, make of the square root's registers holds at its completion. -/
theorem exists_completion_of_rooter_kept {s : State} {i : Instr} {n : Nat} {P : Nat → Rooter → Prop} (hb : s.booted = true)
    (ha : accepts s) (hi : (s.tick.acceptEdge s.input).latched = i) (hl : (latencyOf s.config s.input.cmdOp).edges = n + 1)
    (hr : s.noResetFor (n + 2)) (h0 : P 0 (acceptRooter s.input.cmdOp s.rooter))
    (hkept : ∀ (k : Nat) (u : State), u.config = s.config → u.cnt.toNat + k = n → P k u.rooter → P (k + 1) (u.stepDatapath i).rooter) :
    ∃ t : State, t.config = s.config ∧ P (n + 1) t.rooter ∧ runFor (n + 2) s = .next (t.complete (resultOf s.config s.rom i)) := by
  have hload : (s.tick.acceptEdge s.input).cnt.toNat = n := by
    have := s.acceptEdge_edges
    omega
  obtain ⟨t, hd, hp, hrun⟩ := exists_completion_of_kept (P := fun k t => P k t.rooter) hb ha (by rwa [hl]) h0 fun k t hd hp => by
    rw [State.countdownEdge_rooter, State.tick_latched, hd.latched, hi]
    exact hkept k t.tick hd.config (hd.cnt.trans hload) hp
  rw [hload] at hd hp
  rw [hl, hi] at hrun
  exact ⟨t.tick.stepDatapath i, (State.stepDatapath_config _ i).trans hd.config, hkept n t.tick hd.config (hd.cnt.trans hload) hp, hrun⟩

/-- Settles O60: after each edge the pipe holds the search so far (`pipeAfter`), which the front-end edge begins and every edge after it
carries on; after the sixteenth, the completion edge, it holds the whole root, whose rescaled word and flag are the result function's. -/
theorem magPipeEndsWithMagResult : Obligations.MagPipeEndsWithMagResult := by
  intro s hb ha hop hlat hr
  have hedges : (latencyOf s.config s.input.cmdOp).edges = 16 := hop ▸ hlat
  have hlatched : (s.tick.acceptEdge s.input).latched = .mag s.input.cmdA s.input.cmdB :=
    congrArg (decodeFields · s.input.cmdA s.input.cmdB) hop
  obtain ⟨t, hconfig, hpipe, hrun⟩ := exists_completion_of_rooter_kept
    (P := fun k w => 0 < k → w = pipeAfter s.input.cmdA s.input.cmdB k) hb ha hlatched hedges hr nofun
    fun k u hconfig hcnt h _ => State.stepMag_rooter ((congrArg (·.latMag.edges) hconfig).trans hlat) hcnt h
  have hroot : t.rooter.acc.toNat = Nat.sqrt (magSum s.input.cmdA.toInt s.input.cmdB.toInt % 65536) := by
    rw [hpipe (by decide), pipeAfter_acc_toNat]
  refine ⟨_, hrun, rfl, hroot, ?_, ?_⟩
  · rw [State.complete_resultR, State.complete_rooter, resultOf, resultMag_eq, ← hroot, rescale_toNat_acc]
  · rw [State.complete_ovfR, State.complete_rooter, hpipe (by decide)]
    rfl

end Sys2Proof.Machine

/-! PROOFS. Status conditions and progress (60_exceptions.md R200, R201, R214): the status code that each completion leaves, a unit that never
stops, and one that idles. -/

namespace Sys2Proof.Machine

open Sys2Proof.Claims

/-! ### The result functions, by the op code -/

/-- R224: every command's result function is the rules' own, which picks it by the op code. -/
theorem resultOf_eq_result (c : Config) (rom : Rom) (i : Instr) : resultOf c rom i = result c rom i.op i.a i.b := by
  cases i with
  | sin a b => exact resultSin_eq rom a b
  | cos a b => exact resultCos_eq rom a b
  | atan2 a b => exact resultAtan2_eq c a b
  | isqrt a b => exact resultIsqrt_eq a b
  | mag a b => exact resultMag_eq c a b
  | rsvd5 a b | rsvd6 a b | rsvd7 a b => rfl

/-- R24: the result of the latched command, from the three latches. -/
theorem resultOf_latched (c : Config) (rom : Rom) (s : State) : resultOf c rom s.latched = result c rom s.opR s.aR s.bR := by
  rw [resultOf_eq_result, State.latched, op_decodeFields, a_decodeFields, b_decodeFields]

/-! ### The status code of a completion -/

theorem statusCode_eq_ok_iff {err ovf : Bool} : statusCode err ovf = .ok ↔ err = false ∧ ovf = false := by
  revert err ovf
  decide

theorem statusCode_eq_magOverflow_iff {err ovf : Bool} : statusCode err ovf = .magOverflow ↔ err = false ∧ ovf = true := by
  revert err ovf
  decide

theorem statusCode_eq_reservedOp_iff {err ovf : Bool} : statusCode err ovf = .reservedOp ↔ err = true ∧ ovf = false := by
  revert err ovf
  decide

/-- R27: the codes from 5 on, and no others, answer `err`. -/
theorem err_resultOf_iff (c : Config) (rom : Rom) (i : Instr) : (resultOf c rom i).err = true ↔ 5 ≤ i.op.toNat := by
  cases i with
  | sin a b | cos a b | atan2 a b | isqrt a b | mag a b => exact iff_of_false nofun (Nat.not_le.mpr (by simp [Instr.op]))
  | rsvd5 a b | rsvd6 a b | rsvd7 a b => exact iff_of_true rfl (by simp [Instr.op])

/-- R26, R164: MAG alone answers `ovf`, and exactly from a sum of 65536 on. -/
theorem ovf_resultOf_iff (c : Config) (rom : Rom) (i : Instr) :
    (resultOf c rom i).ovf = true ↔ i.op.toNat = 4 ∧ 65536 ≤ magSum i.a.toInt i.b.toInt := by
  cases i with
  | mag a b =>
    rw [resultOf, resultMag_eq, decide_eq_true_iff]
    exact (and_iff_right rfl).symm
  | sin a b | cos a b | atan2 a b | isqrt a b | rsvd5 a b | rsvd6 a b | rsvd7 a b => exact iff_of_false nofun fun h => nomatch h.1

/-- Settles O35: the code names the two flags of the result function, of which `err` belongs to the ops from 5 on and `ovf` to MAG with an
overflowing sum. -/
theorem statusCodeNamesItsCause : Obligations.StatusCodeNamesItsCause := by
  intro i s
  have herr := err_resultOf_iff s.config s.rom i
  have hovf := ovf_resultOf_iff s.config s.rom i
  have hop : i.op = 4 ↔ i.op.toNat = 4 := BitVec.toNat_inj.symm
  refine ⟨_, exec_eq i s, resultOf_eq_result s.config s.rom i, statusCode_eq_ok_iff, statusCode_eq_magOverflow_iff,
    statusCode_eq_reservedOp_iff, statusCode_resultOf s.config s.rom i, statusCode_eq_ok_iff.trans ?_,
    statusCode_eq_reservedOp_iff.trans ?_, fun h => result_resultOf_of_err (statusCode_eq_reservedOp_iff.mp h).1,
    statusCode_eq_magOverflow_iff.trans ?_⟩
  all_goals simp only [State.complete_errR, State.complete_ovfR, ← Bool.not_eq_true, herr, hovf, hop]
  all_goals omega

/-! ### Progress -/

/-- R200: after the first reset edge the step answers a next state, since no command is refused and the host cannot be at fault. -/
theorem exists_step_of_booted {s : State} (hb : s.booted = true) : ∃ t, step s = .next t := by
  cases h : step s with
  | next t => exact ⟨t, rfl⟩
  | fault f =>
    have hfault := step_eq_fault_iff.mp h
    rw [bootFault_of_booted s hb] at hfault
    cases hfault
  | refused r => exact absurd h (step_ne_refused s r)

/-- Settles O45: a step can stop only before the first reset edge, and a command in flight counts down to its completion edge. -/
theorem unitNeverHangs : Obligations.UnitNeverHangs := by
  refine ⟨fun s hb => ?_, fun s hb hbusy hr => ?_⟩
  · obtain ⟨t, h⟩ := exists_step_of_booted hb
    exact ⟨t, h, step_keeps_booted hb h⟩
  · obtain ⟨t, -, hrun⟩ := exists_runFor_completion hb hbusy hr
    exact ⟨_, hrun, rfl, rfl, resultOf_latched s.config s.rom s⟩

/-! ### The idle unit -/

/-- R225: the first edge of a run without reset and without a command is an idle one. -/
theorem step_idle_of_quiet {s : State} {n : Nat} (hb : s.booted = true) (hbusy : s.busy = false) (hr : s.noResetFor (n + 1))
    (hv : noCommandFor s (n + 1)) : step s = .next s.tick.idleEdge := by
  refine step_idle s hb ?_ hbusy ?_ <;> rw [input_eq_getD]
  · exact hr 0 n.succ_pos
  · exact hv 0 n.succ_pos

/-- The rest of a run without a command, after its first edge, is one too. -/
theorem noCommandFor_tail {s t : State} {n : Nat} (h : noCommandFor s (n + 1)) (ht : t.host = s.host.tail) : noCommandFor t n := by
  intro k hk
  rw [ht, ← State.tick_host, tick_host_getD]
  exact h (k + 1) (by omega)

/-- Settles O48: by induction on the edges; an idle edge leaves an idle unit, whose run goes on without reset and without a command. -/
theorem idleUnitKeepsItsRegisters : Obligations.IdleUnitKeepsItsRegisters := by
  intro s n hb hbusy hr hv
  induction n generalizing s with
  | zero =>
    rw [runFor_succ 0 (step_idle_of_quiet hb hbusy hr hv), List.drop_one]
    rfl
  | succ n ih =>
    rw [runFor_succ (n + 1) (step_idle_of_quiet hb hbusy hr hv), ih s.tick.idleEdge hb hbusy (hr.tail rfl) (noCommandFor_tail hv rfl),
      State.idleEdge_host, State.tick_host, List.drop_tail]
    rfl

end Sys2Proof.Machine

/-! PROOFS. Reset and hazards (70_reset_and_hazards.md R220 to R239): the edges of R226 one by one, reset at power-up and in flight, a
command's latency, and the spacing of commands. -/

namespace Sys2Proof.Machine

open Sys2Proof.Claims

/-! ### The reset edge -/

/-- R220, log 6: a reset edge is no fault, unless the host reads at one before the first. -/
theorem bootFault_of_reset {s : State} (h : s.booted = true ∨ s.input.reads = false) (hr : s.input.rst = true) : s.bootFault = none := by
  obtain hb | hread := h
  · exact bootFault_of_booted s hb
  · simp [State.bootFault, hread, hr]

/-- Settles O7: a reset edge is taken before any other case, and it writes the reset values. -/
theorem resetEdgeWritesVisibleRegisters : Obligations.ResetEdgeWritesVisibleRegisters := fun s h hr =>
  ⟨_, step_reset s (bootFault_of_reset h hr) hr, rfl, rfl, rfl, rfl, rfl, rfl, rfl, rfl, rfl⟩

theorem cleanEntry_iff (s : State) : s.cleanEntry = true ↔
    s.busy = false ∧ s.doneR = false ∧ s.resultR = 0 ∧ s.ovfR = false ∧ s.errR = false := by
  simp [State.cleanEntry, and_assoc]

/-- R220, R239: a reset edge leaves a launch state. -/
@[simp] theorem State.cleanEntry_resetEdge (s : State) : s.resetEdge.cleanEntry = true := rfl

/-- Settles O53: the predicate is a conjunction of five tests, and a reset edge writes the five values. -/
theorem cleanEntryHoldsAfterReset : Obligations.CleanEntryHoldsAfterReset := by
  refine ⟨cleanEntry_iff, fun s t hr h => ?_, rfl⟩
  rw [step_reset s (step_cases h).1 hr] at h
  cases h
  exact State.cleanEntry_resetEdge _

/-- Settles O54: the host reads nothing in the cycle of the reset edge, so that edge is no fault, and it establishes the invariant. -/
theorem oneResetEdgeBootsTheUnit : Obligations.OneResetEdgeBootsTheUnit := by
  intro c k h rest hr hread
  have hstep := step_reset (State.powerUp c k (h :: rest)) (bootFault_of_reset (.inr hread) hr) hr
  exact ⟨_, hstep, State.cleanEntry_resetEdge _, State.inv_resetEdge rfl, rfl, rfl⟩

/-- R33: `cmd_ready` is 0 while `rst` is 1. -/
theorem cmdReady_of_reset {s : State} (hr : s.input.rst = true) : s.outputs.cmdReady = false := by
  simp [State.outputs, hr]

/-- R221: while `rst` stays 1, every edge is a reset edge. -/
theorem exists_runFor_heldReset {s : State} {n : Nat} (h : s.booted = true ∨ s.input.reads = false)
    (hr : ∀ k, k ≤ n → (s.host.getD k HostCycle.idle).rst = true) :
    ∀ k, k ≤ n + 1 → ∃ t, runFor k s = .next t ∧ (t.booted = true ∨ t.input.reads = false) ∧ t.host = s.host.drop k ∧
      (0 < k → t.cleanEntry = true) ∧ t.rom = s.rom ∧ t.config = s.config := by
  intro k
  induction k with
  | zero => exact fun _ => ⟨s, rfl, h, rfl, nofun, rfl, rfl⟩
  | succ k ih =>
    intro hk
    obtain ⟨t, ht, hread, hhost, -, hrom, hconfig⟩ := ih (by omega)
    have hrst : t.input.rst = true := by
      rw [input_of_host_eq_drop hhost]
      exact hr k (by omega)
    have hstep := step_reset t (bootFault_of_reset hread hrst) hrst
    exact ⟨_, runFor_succ_last ht hstep, .inl rfl, by simp [hhost], fun _ => State.cleanEntry_resetEdge _, hrom, hconfig⟩

/-- Settles O8: every edge of the run is a reset edge, and every cycle before one has `rst` 1. -/
theorem heldResetKeepsResetState : Obligations.HeldResetKeepsResetState := by
  intro s n h hr
  refine ⟨fun k hk => ?_, ?_⟩
  · obtain ⟨t, ht, -, hhost, -⟩ := exists_runFor_heldReset h hr k (by omega)
    refine ⟨t, ht, cmdReady_of_reset ?_⟩
    rw [input_of_host_eq_drop hhost]
    exact hr k hk
  · obtain ⟨t, ht, -, -, hclean, hrom, hconfig⟩ := exists_runFor_heldReset h hr (n + 1) le_rfl
    exact ⟨t, ht, hclean n.succ_pos, hrom, hconfig⟩

/-- R220, R225: without a command, a unit as a reset edge leaves it stays so, whether or not the host resets it again. -/
theorem exists_runFor_abandoned {s : State} {n : Nat} (hb : s.booted = true) (hidle : s.busy = false) (hdone : s.doneR = false)
    (hres : s.resultR = 0) (hv : noCommandFor s n) :
    ∃ t, runFor n s = .next t ∧ t.busy = false ∧ t.doneR = false ∧ t.resultR = 0 := by
  induction n generalizing s with
  | zero => exact ⟨s, rfl, hidle, hdone, hres⟩
  | succ n ih =>
    have hvalid : s.input.cmdValid = false := by
      rw [input_eq_getD]
      exact hv 0 n.succ_pos
    cases hr : s.input.rst with
    | true =>
      rw [runFor_succ n (step_reset s (bootFault_of_booted s hb) hr)]
      exact ih rfl rfl rfl rfl (noCommandFor_tail hv rfl)
    | false =>
      rw [runFor_succ n (step_idle s hb hr hidle hvalid)]
      exact ih hb hidle rfl hres (noCommandFor_tail hv rfl)

/-- Settles O47: the reset edge writes the three registers, and without a command no later edge writes another value. -/
theorem resetAbandonsCommandInFlight : Obligations.ResetAbandonsCommandInFlight := by
  intro s n hb _ hr hv
  rw [runFor_succ n (step_reset s (bootFault_of_booted s hb) hr)]
  exact exists_runFor_abandoned rfl rfl rfl rfl hv

/-! ### The other edges of R226 -/

/-- R24: the latched command is the one that the latched word decodes to. -/
theorem decode_latches (s : State) : decode (s.opR ++ s.aR ++ s.bR) = s.latched := by
  simp only [decode, Command.op_append, Command.a_append, Command.b_append, State.latched]

/-- Settles O5: the completion edge runs the latched command. -/
theorem completionEdgeRunsLatchedWord : Obligations.CompletionEdgeRunsLatchedWord := by
  rintro s hb ⟨hr, hbusy, hcnt⟩
  rw [decode_latches]
  exact step_complete s hb hr hbusy hcnt

/-- R223: the datapaths do not see the host. -/
theorem State.stepDatapath_tick (s : State) (i : Instr) : s.tick.stepDatapath i = (s.stepDatapath i).tick := by
  cases i <;> rfl

/-- R23: `cnt` does not wrap at a countdown edge. -/
theorem ofNat_toNat_sub_one {n : BitVec 5} (h : n ≠ 0) : BitVec.ofNat 5 (n.toNat - 1) = n - 1 := by
  bv_omega

/-- Settles O11: the datapath's step leaves the triple, and the edge adds its own writes. -/
theorem countdownEdgeDecrements : Obligations.CountdownEdgeDecrements := by
  refine fun s hb hr hbusy hcnt => ⟨?_, by simp [State.shown]⟩
  rw [step_countdown s hb hr hbusy hcnt, State.countdownEdge, State.tick_latched, State.stepDatapath_tick, ofNat_toNat_sub_one hcnt,
    State.tick, State.stepDatapath_host]
  rfl

/-- Settles O12: the idle edge's only write is `done_r <- 0`. -/
theorem idleEdgeWritesOnlyDone : Obligations.IdleEdgeWritesOnlyDone := fun s hb hr hbusy hv => step_idle s hb hr hbusy hv

/-- Settles O40: both edges of a unit in flight are functions of the state after the clock has moved on, which has dropped the cycle. -/
theorem busyUnitIgnoresCommandPort : Obligations.BusyUnitIgnoresCommandPort := by
  intro s c c' rest hb hbusy hr hr'
  by_cases hcnt : s.cnt = 0
  · exact (step_complete { s with host := c :: rest } hb hr hbusy hcnt).trans
      (step_complete { s with host := c' :: rest } hb hr' hbusy hcnt).symm
  · exact (step_countdown { s with host := c :: rest } hb hr hbusy hcnt).trans
      (step_countdown { s with host := c' :: rest } hb hr' hbusy hcnt).symm

/-- R227: the rules' latency table is the model's. -/
theorem lat_eq_edges (c : Config) (op : OpCode) : lat c op = (latencyOf c op).edges := by
  obtain rfl | rfl | rfl | rfl | rfl | rfl | rfl | rfl := opCode_cases op <;> rfl

/-- Settles O13: each edge writes the registers as R226's case of the same premise says. -/
theorem stepRefinesEdgePseudocode : Obligations.StepRefinesEdgePseudocode := by
  intro s hb
  obtain ⟨t, h⟩ := exists_step_of_booted hb
  refine ⟨t, h, ?_⟩
  obtain ⟨hr, rfl⟩ | ⟨hr, hbusy, hv, rfl⟩ | ⟨hr, hbusy, hv, rfl⟩ | ⟨hr, hbusy, hcnt, rfl⟩ | ⟨hr, hbusy, hcnt, rfl⟩ :=
    step_cases_of_booted hb h
  · simp [edgeStep, hr]
  · simp [edgeStep, hr, hbusy, hv, countLoad_toNat, lat_eq_edges]
  · simp [edgeStep, hr, hbusy, hv]
  · have hcount : s.tick.countdownEdge.cnt.toNat = s.cnt.toNat - 1 := by
      rw [State.countdownEdge_cnt, State.tick_cnt]
      bv_omega
    simp only [edgeStep, hr, hbusy, if_pos hcnt, Bool.false_eq_true, Bool.true_eq_false, false_and, if_false]
    exact ⟨hcount, by simp [hbusy]⟩
  · simp [edgeStep, hr, hbusy, hcnt, resultOf_latched]

/-! ### The acceptance edge and the edge after it -/

/-- R222, log 18: of the root's registers acceptance can change `acc` only, which it clears for ISQRT. -/
theorem acceptRooter_eq (op : OpCode) (w : Rooter) : acceptRooter op w = { w with acc := if op = 3 then 0 else w.acc } := by
  unfold acceptRooter
  split <;> rfl

/-- Settles O10: the acceptance edge writes no other work register than `acc`, and that one for ISQRT only. -/
theorem acceptanceKeepsOtherWorkRegisters : Obligations.AcceptanceKeepsOtherWorkRegisters := by
  rintro s hb ⟨hr, hidle, hv⟩
  refine ⟨_, step_accept s hb hr hidle hv, rfl, ?_, ?_, rfl, fun hop => if_neg hop⟩ <;>
    rw [State.acceptEdge_rooter, acceptRooter_eq] <;> rfl

/-- R223, R224: an edge without reset and with a command in flight takes one step of its datapath. -/
theorem exists_step_of_busy {s : State} (hb : s.booted = true) (hr : s.input.rst = false) (hbusy : s.busy = true) :
    ∃ t, step s = .next t ∧ t.divider = (s.tick.stepDatapath s.latched).divider ∧
      t.rooter = (s.tick.stepDatapath s.latched).rooter := by
  by_cases hcnt : s.cnt = 0
  · exact ⟨_, (step_complete s hb hr hbusy hcnt).trans (exec_eq _ _), rfl, rfl⟩
  · exact ⟨_, step_countdown s hb hr hbusy hcnt, rfl, rfl⟩

/-- R124, log 7: the first edge after acceptance is the divider's setup edge. -/
theorem State.stepDivider_setup {s : State} {a b : Word} (h : s.cnt.toNat + 1 = s.config.latAtan2.edges) :
    (s.stepDivider a b).divider = dividerSetup a b := by
  have hedge : s.edgeNumber s.config.latAtan2 = 1 := by
    unfold State.edgeNumber
    omega
  simp [State.stepDivider, hedge, inSchedule, dividerStep]

/-- R163, log 7: the first edge after acceptance is the pipe's front-end edge. -/
theorem State.stepMag_frontEnd {s : State} {a b : Word} (h : s.cnt.toNat + 1 = s.config.latMag.edges) :
    (s.stepMag a b).rooter = magFrontEnd a b := by
  have hedge : s.edgeNumber s.config.latMag = 1 := by
    unfold State.edgeNumber
    omega
  simp [State.stepMag, hedge, inSchedule, magStep]

/-- Settles O9: acceptance is the whole record, and the edge after it, countdown or completion, is its datapath's first. -/
theorem acceptanceEdgeLatchesCommand : Obligations.AcceptanceEdgeLatchesCommand := by
  rintro s hb ⟨hr, hidle, hv⟩
  have hstep := step_accept s hb hr hidle hv
  have hedges := s.acceptEdge_edges
  have hclear : s.input.cmdOp = 3 → (acceptRooter s.input.cmdOp s.rooter).acc = 0 := fun hop => congrArg Rooter.acc (if_pos hop)
  refine ⟨by simp [State.outputs, hidle, hr], ⟨_, hclear, ?_⟩, fun hnr => ?_⟩
  · rw [hstep, lat_eq_edges, State.acceptEdge, State.tick_rooter, acceptRooter_eq]
    rfl
  · have hr' : (s.tick.acceptEdge s.input).input.rst = false := by
      rw [input_eq_getD]
      exact hnr.tail (t := s.tick.acceptEdge s.input) rfl 0 Nat.one_pos
    obtain ⟨t, ht, hdivider, hrooter⟩ := exists_step_of_busy (s := s.tick.acceptEdge s.input) hb hr' rfl
    refine ⟨t, (runFor_succ 1 hstep).trans (runFor_succ_last rfl ht), fun hop => ?_, fun hop => ?_⟩
    · have hlatched : (s.tick.acceptEdge s.input).latched = .atan2 s.input.cmdA s.input.cmdB :=
        congrArg (decodeFields · s.input.cmdA s.input.cmdB) hop
      rw [hop] at hedges
      rw [hdivider, hlatched]
      exact State.stepDivider_setup hedges
    · have hlatched : (s.tick.acceptEdge s.input).latched = .mag s.input.cmdA s.input.cmdB :=
        congrArg (decodeFields · s.input.cmdA s.input.cmdB) hop
      rw [hop] at hedges
      rw [hrooter, hlatched]
      exact State.stepMag_frontEnd hedges

/-! ### A command's latency -/

/-- R223: a command in flight shows no `done`. -/
theorem exists_inFlight_without_done {s : State} {n k : Nat} (hb : s.booted = true) (ha : accepts s) (hr : s.noResetFor (n + 1))
    (hkn : k ≤ n) (hkl : k < (latencyOf s.config s.input.cmdOp).edges) :
    ∃ t, runFor (k + 1) s = .next t ∧ CountedDown (s.tick.acceptEdge s.input) k t ∧ t.doneR = false := by
  obtain ⟨hrst, hidle, hvalid⟩ := ha
  rw [runFor_succ k (step_accept s hb hrst hidle hvalid)]
  have hedges := s.acceptEdge_edges
  exact exists_countedDown_of_kept (s := s.tick.acceptEdge s.input) (P := fun _ t => t.doneR = false) hb rfl (hr.tail rfl) rfl
    (fun _ t _ _ => State.countdownEdge_doneR t.tick) k hkn (by omega)

/-- Settles O44: an accepted command is in flight for `LAT(op)` edges, whose states show the triple as it was, and then completes. -/
theorem commandCompletesAfterItsLatency : Obligations.CommandCompletesAfterItsLatency := by
  intro s hb ha hr
  rw [lat_eq_edges] at hr ⊢
  constructor
  · intro k hk hle
    obtain ⟨k, rfl⟩ := Nat.exists_eq_add_of_le' hk
    obtain ⟨t, ht, hd, hdone⟩ := exists_inFlight_without_done hb ha hr (Nat.le_of_succ_le hle) hle
    exact ⟨t, ht, hd.busy, hdone, hd.shown, by simp [State.outputs, hd.busy]⟩
  · obtain ⟨t, hd, ht⟩ := exists_completion_of_accepts hb ha hr
    exact ⟨_, ht, rfl, rfl, resultOf_latched s.config s.rom (s.tick.acceptEdge s.input)⟩

/-- Log 4: a run uses up one cycle of the host an edge. -/
theorem host_of_runFor {n : Nat} {s t : State} (h : runFor n s = .next t) : t.host = s.host.drop n := by
  induction n generalizing s with
  | zero => cases h; rfl
  | succ n ih =>
    obtain ⟨u, hu, hrun⟩ := exists_step_of_runFor_succ h
    obtain ⟨-, -, hhost⟩ := builtInStateNeverChanges s u hu
    rw [ih hrun, hhost, List.drop_tail]

theorem State.noResetFor.mono {s : State} {m n : Nat} (h : s.noResetFor n) (hmn : m ≤ n) : s.noResetFor m :=
  fun k hk => h k (hk.trans_le hmn)

/-- Settles O46: until its completion the first command keeps the unit busy, and its completion edge leaves the unit idle. -/
theorem acceptancesAreSpaced : Obligations.AcceptancesAreSpaced := by
  refine ⟨fun s t k hb ha hk hr ht hat => ?_, fun s hb ha hr hv => ?_, rfl, rfl⟩
  · by_contra hlt
    rw [lat_eq_edges] at hlt
    obtain ⟨k, rfl⟩ := Nat.exists_eq_add_of_le' hk
    obtain ⟨u, hu, hd⟩ := exists_inFlight_of_accepts hb ha hr le_rfl (by omega)
    obtain ⟨-, hidle, -⟩ := hat
    cases ht.symm.trans hu
    exact Bool.false_ne_true (hidle.symm.trans hd.busy)
  · rw [lat_eq_edges] at hr hv ⊢
    obtain ⟨t, -, ht⟩ := exists_completion_of_accepts hb ha (hr.mono (Nat.le_succ _))
    refine ⟨_, ht, ?_, rfl, ?_⟩ <;> rw [input_of_host_eq_drop (host_of_runFor ht)]
    · exact hr _ (Nat.lt_succ_self _)
    · exact hv

end Sys2Proof.Machine

/-! PROOFS. The host that carries out a trace (30_encoding.md R69, 70_reset_and_hazards.md R231, R234, R238): one edge of a unit and its host,
the runs that are open until their last completion, and those that never end. -/

namespace Sys2Proof.Machine

open Sys2Proof.Claims

/-! ### One edge of a unit and its host

A session is looked at before its host's turn: the turn is `Session.decided` on the host's reaction, and an edge leads to another session
before its turn. Of the unit only what a host can tell matters (`Resting`, `Flying`). -/

@[simp] theorem Reaction.cycle_rst (r : Reaction) : r.cycle.rst = r.rst := by
  unfold Reaction.cycle
  split <;> rfl

theorem Reaction.cycle_of_none {r : Reaction} (h : r.presenting = none) : r.cycle.cmdValid = false := by
  simp only [Reaction.cycle, h, HostCycle.idle]

theorem Reaction.cycle_of_some {r : Reaction} {i : Instr} (h : r.presenting = some i) :
    r.cycle = ⟨r.rst, true, i.op, i.a, i.b, r.watches⟩ := by
  simp only [Reaction.cycle, h]

/-- The session once the host has decided `r`. -/
def Session.decided (p : Session) (r : Reaction) : Session :=
  { p with
    unit := { p.unit with host := [r.cycle] }
    lines := r.lines
    presenting := r.presenting
    sampled := if r.samples then p.sampled ++ [p.unit.shown] else p.sampled }

theorem Session.turn_eq_decided {p : Session} {r : Reaction} {done : Bool} (hdone : p.unit.completed = done)
    (h : react done p.presenting p.lines = r) : p.turn = p.decided r := by
  subst hdone h
  rfl

/-- `u` is a unit built as `s` is, with nothing in flight; `done` tells whether a completion edge has led to it. -/
structure Resting (s : State) (done : Bool) (u : State) : Prop where
  booted : u.booted = true
  config : u.config = s.config
  rom : u.rom = s.rom
  idle : u.busy = false
  completed : u.completed = done

/-- `u` is a unit built as `s` is, with `i` in flight and `n` edges before its completion edge (10_state.md R23). -/
structure Flying (s : State) (i : Instr) (n : Nat) (u : State) : Prop where
  booted : u.booted = true
  config : u.config = s.config
  rom : u.rom = s.rom
  busy : u.busy = true
  latched : u.latched = i
  cnt : u.cnt.toNat = n
  completed : u.completed = false

theorem Resting.decided {s : State} {done : Bool} {p : Session} (hu : Resting s done p.unit) (r : Reaction) :
    Resting s done (p.decided r).unit :=
  ⟨hu.booted, hu.config, hu.rom, hu.idle, hu.completed⟩

theorem Flying.decided {s : State} {i : Instr} {n : Nat} {p : Session} (hu : Flying s i n p.unit) (r : Reaction) :
    Flying s i n (p.decided r).unit :=
  ⟨hu.booted, hu.config, hu.rom, hu.busy, hu.latched, hu.cnt, hu.completed⟩

/-- R222: the acceptance edge puts the presented command in flight. -/
theorem Resting.exists_accept {s u : State} {done w : Bool} {i : Instr} (hu : Resting s done u)
    (hi : u.input = ⟨false, true, i.op, i.a, i.b, w⟩) :
    ∃ t, step u = .next t ∧ Flying s i ((latencyOf s.config i.op).edges - 1) t := by
  have hstep := step_accept u hu.booted (congrArg HostCycle.rst hi) hu.idle (congrArg HostCycle.cmdValid hi)
  rw [hi] at hstep
  have hcnt := countLoad_toNat s.config i.op
  exact ⟨_, hstep, hu.booted, hu.config, hu.rom, rfl, decodeFields_fields i, by simpa [hu.config] using hcnt,
    State.acceptEdge_completed _ _⟩

/-- R225: without a command the unit stays idle. -/
theorem Resting.exists_idle {s u : State} {done : Bool} (hu : Resting s done u) (hr : u.input.rst = false)
    (hv : u.input.cmdValid = false) : ∃ t, step u = .next t ∧ Resting s false t :=
  ⟨_, step_idle u hu.booted hr hu.idle hv, hu.booted, hu.config, hu.rom, hu.idle, State.idleEdge_completed u.tick⟩

/-- R223: a countdown edge leaves one edge less. -/
theorem Flying.exists_countdown {s u : State} {i : Instr} {n : Nat} (hu : Flying s i (n + 1) u) (hr : u.input.rst = false) :
    ∃ t, step u = .next t ∧ Flying s i n t := by
  have hn := hu.cnt
  have hcnt : u.cnt ≠ 0 := by bv_omega
  have hless : (u.cnt - 1).toNat = n := by bv_omega
  refine ⟨_, step_countdown u hu.booted hr hu.busy hcnt, ?_, ?_, ?_, ?_, ?_, ?_, State.countdownEdge_completed _⟩
  · simp [hu.booted]
  · simp [hu.config]
  · simp [hu.rom]
  · simp [hu.busy]
  · simpa [State.latched] using hu.latched
  · simpa using hless

/-- R224: the completion edge shows the command's triple. -/
theorem Flying.exists_complete {s u : State} {i : Instr} (hu : Flying s i 0 u) (hr : u.input.rst = false) :
    ∃ t, step u = .next t ∧ Resting s true t ∧ t.shown = result s.config s.rom i.op i.a i.b := by
  have hcnt : u.cnt = 0 := BitVec.eq_of_toNat_eq hu.cnt
  refine ⟨_, (step_complete u hu.booted hr hu.busy hcnt).trans (exec_eq _ _), ⟨?_, ?_, ?_, rfl, ?_⟩, ?_⟩
  · simp [hu.booted]
  · simp [hu.config]
  · simp [hu.rom]
  · simp [hu.booted]
  · simp [hu.config, hu.rom, hu.latched, resultOf_eq_result]

/-- R234: a reset edge leaves nothing in flight. -/
theorem Flying.exists_reset {s u : State} {i : Instr} {n : Nat} (hu : Flying s i n u) (hr : u.input.rst = true) :
    ∃ t, step u = .next t ∧ Resting s false t :=
  ⟨_, step_reset u (bootFault_of_booted u hu.booted) hr, rfl, hu.config, hu.rom, rfl, State.resetEdge_completed u.tick⟩

theorem Session.after_of_accepted {p : Session} {t : State} {i : Instr} (hi : p.accepted = some i) (ht : t.completed = false) :
    p.after t = { p with unit := t, presenting := none, abandoned := p.abandoned.erase i } := by
  simp [after, hi, ht]

theorem Session.after_of_not_accepted {p : Session} {t : State} (hi : p.accepted = none) (hr : p.unit.input.rst = false) :
    p.after t = { p with unit := t, observed := if t.completed then p.observed ++ [t.shown] else p.observed } := by
  simp [after, hi, hr]

theorem Session.after_of_abandoned {p : Session} {t : State} (hi : p.accepted = none) (hb : p.unit.booted = true)
    (hr : p.unit.input.rst = true) (hbusy : p.unit.busy = true) (ht : t.completed = false) :
    p.after t = { p with unit := t, abandoned := p.abandoned ++ [p.unit.latched] } := by
  simp [after, hi, hb, hr, hbusy, ht]

theorem Session.accepted_of_busy {p : Session} (h : p.unit.busy = true) : p.accepted = none := by
  simp [accepted, State.outputs, h]

/-- R229: an accepted command is presented no more, and it is no longer an abandoned one (R234). -/
theorem Session.edge_accept {s : State} {done : Bool} {p : Session} {r : Reaction} {i : Instr} (hu : Resting s done p.unit)
    (hr : r.rst = false) (hp : r.presenting = some i) :
    ∃ t, (p.decided r).edge = .next
        (turn { p.decided r with unit := t, presenting := none, abandoned := p.abandoned.erase i }) ∧
      Flying s i ((latencyOf s.config i.op).edges - 1) t := by
  have hcycle : r.cycle = ⟨false, true, i.op, i.a, i.b, r.watches⟩ := hr ▸ Reaction.cycle_of_some hp
  obtain ⟨t, hstep, ht⟩ := (hu.decided r).exists_accept hcycle
  have haccepted : (p.decided r).accepted = some i := by
    simp [accepted, decided, State.outputs, State.input, hu.idle, hr, hp]
  refine ⟨t, ?_, ht⟩
  rw [edge_of_next hstep, after_of_accepted haccepted ht.completed]
  rfl

/-- R225: an idle edge leaves to the session what its host has decided. -/
theorem Session.edge_idle {s : State} {done : Bool} {p : Session} {r : Reaction} (hu : Resting s done p.unit) (hr : r.rst = false)
    (hp : r.presenting = none) :
    ∃ t, (p.decided r).edge = .next (turn { p.decided r with unit := t }) ∧ Resting s false t := by
  have hrst : (p.decided r).unit.input.rst = false := r.cycle_rst.trans hr
  obtain ⟨t, hstep, ht⟩ := (hu.decided r).exists_idle hrst (Reaction.cycle_of_none hp)
  have haccepted : (p.decided r).accepted = none := by simp [accepted, decided, hp]
  refine ⟨t, ?_, ht⟩
  rw [edge_of_next hstep, after_of_not_accepted haccepted hrst, ht.completed]
  rfl

/-- R223, R230: so does a countdown edge, whatever command the host presents. -/
theorem Session.edge_countdown {s : State} {p : Session} {r : Reaction} {i : Instr} {n : Nat} (hu : Flying s i (n + 1) p.unit)
    (hr : r.rst = false) :
    ∃ t, (p.decided r).edge = .next (turn { p.decided r with unit := t }) ∧ Flying s i n t := by
  have hrst : (p.decided r).unit.input.rst = false := r.cycle_rst.trans hr
  obtain ⟨t, hstep, ht⟩ := (hu.decided r).exists_countdown hrst
  refine ⟨t, ?_, ht⟩
  rw [edge_of_next hstep, after_of_not_accepted (accepted_of_busy (hu.decided r).busy) hrst, ht.completed]
  rfl

/-- R238: a completion edge adds its triple to the observation. -/
theorem Session.edge_complete {s : State} {p : Session} {r : Reaction} {i : Instr} (hu : Flying s i 0 p.unit) (hr : r.rst = false) :
    ∃ t, (p.decided r).edge = .next
        (turn { p.decided r with unit := t, observed := p.observed ++ [result s.config s.rom i.op i.a i.b] }) ∧
      Resting s true t ∧ t.shown = result s.config s.rom i.op i.a i.b := by
  have hrst : (p.decided r).unit.input.rst = false := r.cycle_rst.trans hr
  obtain ⟨t, hstep, ht, hshown⟩ := (hu.decided r).exists_complete hrst
  refine ⟨t, ?_, ht, hshown⟩
  rw [edge_of_next hstep, after_of_not_accepted (accepted_of_busy (hu.decided r).busy) hrst, ht.completed, hshown]
  rfl

/-- R234: a reset edge adds the command in flight to the abandoned ones. -/
theorem Session.edge_reset {s : State} {p : Session} {r : Reaction} {i : Instr} {n : Nat} (hu : Flying s i n p.unit)
    (hr : r.rst = true) :
    ∃ t, (p.decided r).edge = .next (turn { p.decided r with unit := t, abandoned := p.abandoned ++ [i] }) ∧ Resting s false t := by
  have hrst : (p.decided r).unit.input.rst = true := r.cycle_rst.trans hr
  obtain ⟨t, hstep, ht⟩ := (hu.decided r).exists_reset hrst
  refine ⟨t, ?_, ht⟩
  have hu' := hu.decided r
  rw [edge_of_next hstep, after_of_abandoned (accepted_of_busy hu'.busy) hu'.booted hrst hu'.busy ht.completed, hu'.latched]
  rfl

/-! ### Open runs -/

theorem Session.ended_of_presenting {p : Session} {i : Instr} (h : p.presenting = some i) : p.ended = false := by
  simp [ended, h]

theorem Session.ended_of_abandoned {p : Session} (h : p.abandoned ≠ []) : p.ended = false := by
  simp [ended, h]

theorem Session.ended_of_busy {p : Session} (h : p.unit.busy = true) : p.ended = false := by
  simp [ended, h]

/-- `n` edges lead from one state of a run to another, and no state before that one is ended (R238). -/
inductive Session.OpenRun : Nat → Session → Session → Prop
  | refl (p : Session) : OpenRun 0 p p
  | edge {n : Nat} {p q r : Session} : p.ended = false → p.edge = .next q → OpenRun n q r → OpenRun (n + 1) p r

theorem Session.OpenRun.trans {m n : Nat} {p q r : Session} (h : OpenRun m p q) (h' : OpenRun n q r) : OpenRun (m + n) p r := by
  induction h with
  | refl p => rwa [Nat.zero_add]
  | edge ho he _ ih =>
    rw [Nat.add_right_comm]
    exact .edge ho he (ih h')

theorem Session.OpenRun.runFor_eq {n : Nat} {p q : Session} (h : OpenRun n p q) : p.runFor n = .next q := by
  induction h with
  | refl p => rfl
  | edge _ he _ ih => rw [runFor_succ _ he, ih]

/-- The end of an open run is looked for from its last state on. -/
theorem Session.OpenRun.endWithin_add {m : Nat} {p q : Session} (h : OpenRun m p q) (n : Nat) : p.endWithin (m + n) = q.endWithin n := by
  induction h with
  | refl p => rw [Nat.zero_add]
  | edge ho he _ ih => rw [Nat.add_right_comm, endWithin_succ _ ho he, ih]

theorem Session.OpenRun.endWithin_eq_some {n : Nat} {p q : Session} (h : OpenRun n p q) (hq : q.ended = true) :
    p.endWithin n = some q := (h.endWithin_add 0).trans (endWithin_of_ended hq 0)

theorem Session.OpenRun.endWithin_eq_none {n : Nat} {p q : Session} (h : OpenRun n p q) :
    ∀ {m : Nat}, m < n → p.endWithin m = none := by
  induction h with
  | refl p => exact nofun
  | edge ho he _ ih =>
    rintro (_ | m) hm
    · simp [endWithin, ho]
    · rw [endWithin_succ m ho he, ih (Nat.lt_of_succ_lt_succ hm)]

/-- R223, R224: a command in flight completes, while the host's reaction to `done = 0` stays the same. -/
theorem Session.exists_openRun_flight {s : State} {i : Instr} {n : Nat} {p : Session} {ls : List HostAction} {held : Option Instr}
    {w : Bool} (hu : Flying s i n p.unit) (hfix : react false held ls = ⟨ls, held, false, w, false⟩) :
    ∃ t, OpenRun (n + 1) (p.decided ⟨ls, held, false, w, false⟩)
        (turn { p with
          unit := t, lines := ls, presenting := held, observed := p.observed ++ [result s.config s.rom i.op i.a i.b] }) ∧
      Resting s true t ∧ t.shown = result s.config s.rom i.op i.a i.b := by
  induction n generalizing p with
  | zero =>
    obtain ⟨t, he, ht, hshown⟩ := edge_complete (r := ⟨ls, held, false, w, false⟩) hu rfl
    exact ⟨t, .edge (ended_of_busy hu.busy) he (.refl _), ht, hshown⟩
  | succ n ih =>
    obtain ⟨u, he, hu'⟩ := edge_countdown (r := ⟨ls, held, false, w, false⟩) hu rfl
    obtain ⟨t, hrun, ht⟩ := ih (p := { p.decided ⟨ls, held, false, w, false⟩ with unit := u }) hu'
    rw [← turn_eq_decided hu'.completed hfix] at hrun
    exact ⟨t, .edge (ended_of_busy hu.busy) he hrun, ht⟩

/-- R227, R231: a command that the host presents to an idle unit is accepted at once and completes `LAT(op)` edges later, while the host does
not react to `done = 0` in another way than in the first cycle after acceptance. -/
theorem Session.exists_openRun_command {s : State} {i : Instr} {done : Bool} {p : Session} {ls ls' : List HostAction}
    {held : Option Instr} {w w' samples : Bool} (hu : Resting s done p.unit)
    (hreact : react done p.presenting p.lines = ⟨ls, some i, false, w, samples⟩)
    (hflight : react false none ls = ⟨ls', held, false, w', false⟩)
    (hfix : react false held ls' = ⟨ls', held, false, w', false⟩) :
    ∃ t, OpenRun (lat s.config i.op + 1) p.turn
        (turn
          { unit := t, lines := ls', presenting := held, abandoned := p.abandoned.erase i,
            sampled := if samples then p.sampled ++ [p.unit.shown] else p.sampled,
            observed := p.observed ++ [result s.config s.rom i.op i.a i.b] }) ∧
      Resting s true t ∧ t.shown = result s.config s.rom i.op i.a i.b := by
  rw [turn_eq_decided hu.completed hreact]
  obtain ⟨u, he, hu'⟩ := edge_accept (r := ⟨ls, some i, false, w, samples⟩) hu rfl rfl
  obtain ⟨t, hrun, ht⟩ := exists_openRun_flight hu' hfix
    (p := { p.decided ⟨ls, some i, false, w, samples⟩ with unit := u, presenting := none, abandoned := p.abandoned.erase i })
  rw [← turn_eq_decided hu'.completed hflight, Nat.sub_add_cancel (Latency.edges_bounds _).1] at hrun
  rw [lat_eq_edges]
  exact ⟨t, .edge (ended_of_presenting rfl) he hrun, ht⟩

/-! ### The runs of a trace -/

/-- R239: a launch state of a unit that has been reset has nothing in flight and shows no `done`. -/
theorem resting_of_cleanEntry {s : State} (hb : s.booted = true) (hc : s.cleanEntry = true) : Resting s false s := by
  obtain ⟨hidle, hdone, -⟩ := (cleanEntry_iff s).mp hc
  exact ⟨hb, rfl, rfl, hidle, (State.completed_of_booted hb).trans hdone⟩

/-- R231, R238: where the last `WAIT` finds the last completion's pulse, it samples that triple and the run has ended. -/
theorem Session.turn_of_last_wait {s t : State} (ht : Resting s true t) (sampled observed : List Completion) :
    let q := turn ⟨t, [.wait], none, [], sampled, observed⟩
    q.ended = true ∧ q.observed = observed ∧ q.sampled = sampled ++ [t.shown] ∧ q.lines = [] := by
  rw [turn_eq_decided ht.completed rfl]
  exact ⟨by simp [ended, decided, ht.idle], rfl, rfl, rfl⟩

/-- R231, R238: the first command of a trace, with a `WAIT` after it. -/
theorem Session.exists_openRun_start {s : State} (hu : Resting s false s) (i : Instr) (rest : List HostAction) :
    ∃ t, OpenRun (lat s.config i.op + 1) (start s (.issue i :: .wait :: rest))
        (turn ⟨t, .wait :: rest, none, [], [], [result s.config s.rom i.op i.a i.b]⟩) ∧
      Resting s true t ∧ t.shown = result s.config s.rom i.op i.a i.b :=
  exists_openRun_command (p := ⟨s, .issue i :: .wait :: rest, none, [], [], []⟩) hu rfl rfl rfl

/-- Settles O49: the unit runs on the cycles that the session drives, and the session's first completion is its `WAIT`'s. -/
theorem waitedCommandShowsItsResult : Obligations.WaitedCommandShowsItsResult := by
  intro s i hb hc
  obtain ⟨t, hrun, ht, hshown⟩ := Session.exists_openRun_start (resting_of_cleanEntry hb hc) i []
  have hdecided := Session.turn_eq_decided (p := ⟨t, [.wait], none, [], [], [result s.config s.rom i.op i.a i.b]⟩)
    ht.completed rfl
  rw [hdecided] at hrun
  have hobserved := (Session.runFor_unit hrun.runFor_eq).2
  refine ⟨hobserved.symm, _, hrun.runFor_eq, ?_, rfl, ?_, rfl⟩
  · exact (State.completed_of_booted ht.booted).symm.trans ht.completed
  · exact congrArg (fun c => [c]) hshown

/-- R231, R238, R46: from a cycle with the previous command's pulse on, each `WAIT` samples and the next command is presented at once. -/
theorem Session.exists_openRun_waited {s t : State} (ht : Resting s true t) (is : List Instr) (sampled observed : List Completion) :
    ∃ q, OpenRun (is.map fun i => lat s.config i.op + 1).sum
        (turn ⟨t, .wait :: is.flatMap fun i => [.issue i, .wait], none, [], sampled, observed⟩) q ∧
      q.ended = true ∧ q.observed = observed ++ is.map (fun i => result s.config s.rom i.op i.a i.b) ∧
      q.sampled = sampled ++ t.shown :: is.map (fun i => result s.config s.rom i.op i.a i.b) ∧ q.lines = [] := by
  induction is generalizing t sampled observed with
  | nil =>
    obtain ⟨hended, hobserved, hsampled, hlines⟩ := turn_of_last_wait ht sampled observed
    exact ⟨_, .refl _, hended, by simpa using hobserved, hsampled, hlines⟩
  | cons i is ih =>
    obtain ⟨u, hrun, hu, hshown⟩ := exists_openRun_command (i := i) (ls' := .wait :: is.flatMap fun i => [.issue i, .wait])
      (p := ⟨t, .wait :: .issue i :: .wait :: is.flatMap fun i => [.issue i, .wait], none, [], sampled, observed⟩) ht rfl rfl rfl
    obtain ⟨q, hrun', hended, hobserved, hsampled, hlines⟩ := ih hu (sampled ++ [t.shown])
      (observed ++ [result s.config s.rom i.op i.a i.b])
    exact ⟨q, hrun.trans hrun', hended, by simpa using hobserved, by simpa [hshown] using hsampled, hlines⟩

/-- R231, R238: a trace of commands, each with a `WAIT` after it, from a launch state. -/
theorem Session.exists_openRun_trace {s : State} (hu : Resting s false s) (is : List Instr) :
    ∃ q, OpenRun (is.map fun i => lat s.config i.op + 1).sum (start s (is.flatMap fun i => [.issue i, .wait])) q ∧
      q.ended = true ∧ q.observed = is.map (fun i => result s.config s.rom i.op i.a i.b) ∧
      q.sampled = is.map (fun i => result s.config s.rom i.op i.a i.b) ∧ q.lines = [] := by
  cases is with
  | nil =>
    have hstart : start s [] = decided ⟨s, [], none, [], [], []⟩ ⟨[], none, false, false, false⟩ :=
      turn_eq_decided hu.completed (react_nil false none)
    rw [List.flatMap_nil, hstart]
    exact ⟨_, .refl _, by simp [ended, decided, hu.idle], rfl, rfl, rfl⟩
  | cons i is =>
    obtain ⟨t, hrun, ht, hshown⟩ := exists_openRun_start hu i (is.flatMap fun i => [.issue i, .wait])
    obtain ⟨q, hrun', hended, hobserved, hsampled, hlines⟩ := exists_openRun_waited ht is [] [result s.config s.rom i.op i.a i.b]
    exact ⟨q, hrun.trans hrun', hended, hobserved, by simpa [hshown] using hsampled, hlines⟩

/-- Two commands issued at once: the second is presented until the first one's pulse and accepted at the edge after it (R229). -/
theorem Session.exists_openRun_pair {s : State} (hu : Resting s false s) (i j : Instr) :
    ∃ q, OpenRun (lat s.config i.op + 1 + (lat s.config j.op + 1)) (start s [.issue i, .issue j, .wait, .wait]) q ∧
      q.ended = true ∧ q.observed = [result s.config s.rom i.op i.a i.b, result s.config s.rom j.op j.a j.b] ∧
      q.sampled = [result s.config s.rom i.op i.a i.b, result s.config s.rom j.op j.a j.b] ∧ q.lines = [] := by
  obtain ⟨t, hrun, ht, hshown⟩ := exists_openRun_command (i := i) (ls' := [.wait, .wait]) (held := some j)
    (p := ⟨s, [.issue i, .issue j, .wait, .wait], none, [], [], []⟩) hu rfl rfl rfl
  obtain ⟨t', hrun', ht', hshown'⟩ := exists_openRun_command (i := j) (ls' := [.wait]) (held := none)
    (p := ⟨t, [.wait, .wait], some j, [], [], [result s.config s.rom i.op i.a i.b]⟩) ht rfl rfl rfl
  obtain ⟨hended, hobserved, hsampled, hlines⟩ := turn_of_last_wait ht' [t.shown]
    [result s.config s.rom i.op i.a i.b, result s.config s.rom j.op j.a j.b]
  exact ⟨_, hrun.trans hrun', hended, hobserved, by simpa [hshown, hshown'] using hsampled, hlines⟩

/-- Settles O50: by induction on the commands, each of which runs from one pulse to the next with the run still open. -/
theorem traceEndsWithItsResultsInOrder : Obligations.TraceEndsWithItsResultsInOrder := by
  refine fun s hb hc => ⟨fun is => ?_, fun i j => ?_⟩
  · obtain ⟨q, hrun, hended, hq⟩ := Session.exists_openRun_trace (resting_of_cleanEntry hb hc) is
    exact ⟨⟨q, hrun.endWithin_eq_some hended, hrun.runFor_eq, hq⟩, fun n hn => hrun.endWithin_eq_none hn⟩
  · obtain ⟨q, hrun, hended, hq⟩ := Session.exists_openRun_pair (resting_of_cleanEntry hb hc) i j
    exact ⟨q, hrun.endWithin_eq_some hended, hrun.runFor_eq, hq⟩

/-! ### The runs that do not end -/

/-- R231: a host that presents nothing, and does not react to `done = 0`, waits for any number of edges. -/
theorem Session.exists_runFor_quiet {s u : State} {ls : List HostAction} {w : Bool} (hu : Resting s false u)
    (hfix : react false none ls = ⟨ls, none, false, w, false⟩) (abandoned : List Instr) (sampled observed : List Completion) (n : Nat) :
    ∃ t, (turn ⟨u, ls, none, abandoned, sampled, observed⟩).runFor n = .next (turn ⟨t, ls, none, abandoned, sampled, observed⟩) ∧
      Resting s false t := by
  induction n generalizing u with
  | zero => exact ⟨u, rfl, hu⟩
  | succ n ih =>
    obtain ⟨t, he, ht⟩ := edge_idle (p := ⟨u, ls, none, abandoned, sampled, observed⟩) (r := ⟨ls, none, false, w, false⟩)
      hu rfl rfl
    rw [turn_eq_decided hu.completed hfix, runFor_succ n he]
    exact ih ht

/-- R238: with a command abandoned for good and no line left the run never ends. -/
theorem Session.endWithin_of_abandoned {s u : State} {abandoned : List Instr} (hu : Resting s false u) (h : abandoned ≠ [])
    (sampled observed : List Completion) (n : Nat) : (turn ⟨u, [], none, abandoned, sampled, observed⟩).endWithin n = none := by
  induction n generalizing u with
  | zero => simp [endWithin, ended_of_abandoned (p := turn ⟨u, [], none, abandoned, sampled, observed⟩) h]
  | succ n ih =>
    obtain ⟨t, he, ht⟩ := edge_idle (p := ⟨u, [], none, abandoned, sampled, observed⟩) (r := ⟨[], none, false, false, false⟩)
      hu rfl rfl
    rw [turn_eq_decided hu.completed (react_nil false none), endWithin_succ n (ended_of_abandoned h) he]
    exact ih ht

theorem Session.OpenRun.endWithin_eq_none_of_forall {m : Nat} {p q : Session} (h : OpenRun m p q) (hq : ∀ n, q.endWithin n = none)
    (n : Nat) : p.endWithin n = none := by
  obtain hlt | hge := Nat.lt_or_ge n m
  · exact h.endWithin_eq_none hlt
  · rw [← Nat.add_sub_cancel' hge, h.endWithin_add, hq]

/-- R234: a reset at or before the completion edge abandons the command in flight. -/
theorem Session.exists_openRun_reset {s : State} {i : Instr} {n k : Nat} {p : Session} {rest : List HostAction}
    (hu : Flying s i n p.unit) (hk : k ≤ n) (hlines : p.lines = .reset k :: rest) :
    ∃ t, OpenRun (k + 1) p.turn (turn { p with unit := t, lines := rest, abandoned := p.abandoned ++ [i] }) ∧ Resting s false t := by
  induction k generalizing n p with
  | zero =>
    obtain ⟨t, he, ht⟩ := edge_reset (r := ⟨rest, p.presenting, true, false, false⟩) hu rfl
    rw [turn_eq_decided hu.completed (hlines ▸ react_reset_now false p.presenting rest)]
    exact ⟨t, .edge (ended_of_busy hu.busy) he (.refl _), ht⟩
  | succ k ih =>
    obtain ⟨n, rfl⟩ := Nat.exists_eq_add_of_le' (Nat.one_le_of_lt hk)
    obtain ⟨u, he, hu'⟩ := edge_countdown (r := ⟨.reset k :: rest, p.presenting, false, false, false⟩) hu rfl
    obtain ⟨t, hrun, ht⟩ := ih (p := { p.decided ⟨.reset k :: rest, p.presenting, false, false, false⟩ with unit := u }) hu'
      (Nat.le_of_succ_le_succ hk) rfl
    rw [turn_eq_decided hu.completed (hlines ▸ react_reset_later false p.presenting k rest)]
    exact ⟨t, .edge (ended_of_busy hu.busy) he hrun, ht⟩

/-- R222, R234: a command of a trace whose reset comes `k + 1` edges after its acceptance edge, at its completion edge or before. -/
theorem Session.exists_openRun_abandoned {s : State} (hu : Resting s false s) {i : Instr} {k : Nat} (hk : k < lat s.config i.op)
    (rest : List HostAction) :
    ∃ t, OpenRun (k + 2) (start s (.issue i :: .reset (k + 1) :: rest)) (turn ⟨t, rest, none, [i], [], []⟩) ∧ Resting s false t := by
  rw [lat_eq_edges] at hk
  obtain ⟨u, he, hu'⟩ := edge_accept (p := ⟨s, .issue i :: .reset (k + 1) :: rest, none, [], [], []⟩)
    (r := ⟨.reset k :: rest, some i, false, false, false⟩) hu rfl rfl
  obtain ⟨t, hrun, ht⟩ := exists_openRun_reset (p := ⟨u, .reset k :: rest, none, [], [], []⟩) hu' (Nat.le_sub_one_of_lt hk) rfl
  rw [start, turn_eq_decided hu.completed rfl]
  exact ⟨t, .edge (ended_of_presenting rfl) he hrun, ht⟩

/-- Settles O51: an idle unit gives a `WAIT` no pulse; a reset edge leaves the command among the abandoned ones, and issuing it again takes it
off. -/
theorem runStaysOpenWithoutItsCompletions : Obligations.RunStaysOpenWithoutItsCompletions := by
  intro s n hb hc
  have hs := resting_of_cleanEntry hb hc
  refine ⟨fun lines => ?_, fun i k hk hle => ?_⟩
  · obtain ⟨t, hrun, ht⟩ := Session.exists_runFor_quiet hs (react_wait_quiet none lines) [] [] [] n
    rw [Session.turn_eq_decided (p := ⟨t, .wait :: lines, none, [], [], []⟩) ht.completed
      (react_wait_quiet none lines)] at hrun
    exact ⟨_, hrun, rfl, rfl, rfl, by simp [Session.stuck, Session.decided, ht.idle]⟩
  obtain ⟨k, rfl⟩ := Nat.exists_eq_add_of_le' hk
  constructor
  · obtain ⟨t, hrun, ht⟩ := Session.exists_openRun_abandoned hs hle []
    exact hrun.endWithin_eq_none_of_forall (Session.endWithin_of_abandoned ht (List.cons_ne_nil i []) [] []) n
  · obtain ⟨t, hrun, ht⟩ := Session.exists_openRun_abandoned hs hle [.issue i, .wait]
    obtain ⟨t', hrun', ht', hshown⟩ := Session.exists_openRun_command (i := i) (ls' := [.wait]) (held := none)
      (p := ⟨t, [.issue i, .wait], none, [i], [], []⟩) ht rfl rfl rfl
    rw [List.erase_cons_head] at hrun'
    obtain ⟨hended, hobserved, hsampled, -⟩ := Session.turn_of_last_wait ht' [] [result s.config s.rom i.op i.a i.b]
    refine ⟨_, ?_, hobserved, ?_⟩
    · rw [show k + 1 + lat s.config i.op + 2 = k + 2 + (lat s.config i.op + 1) by omega]
      exact (hrun.trans hrun').endWithin_eq_some hended
    · rw [hsampled, hobserved, hshown]
      rfl

end Sys2Proof.Machine
